-- ==== Sys2Proof/Word.lean ====
section
/-! DEFINITION. The widths of the values the spec treats as bits (00_scope.md R9, R10; 30_encoding.md R98). -/

namespace Sys2Proof

/-- A byte of the wire, of a payload or of a message: `BYTE_W` = 8 bits (R9). -/
abbrev Byte := BitVec 8

/-- A port index or a command kind: `PORT_BITS` = `KIND_BITS` = 4 bits (R9, R85). -/
abbrev Nibble := BitVec 4

/-- A time field of `ENC_CFG` in milliseconds: `TIME_W` = 12 bits, unsigned (R9, R34). -/
abbrev Millis := BitVec 12

/-- One beat of a channel, `kind[1:0]` in bits 9:8 and `data[7:0]` in bits 7:0 (R98). -/
abbrev Beat := BitVec 10

/-- The kind bits of a beat (R98). -/
abbrev BeatKind := BitVec 2

end Sys2Proof
end

