-- ==== Sys2Proof/Config.lean ====
section
/-! DEFINITION. What is fixed for a given block: the constants of 00_scope.md R8, the parameters of 00_scope.md R9,
and the free values (no body: nothing in Lean can evaluate one). -/

namespace Sys2Proof

/-- The frame boundary marker, `MARK` (R8). -/
abbrev Wire.MARK : Byte := 0xC0#8

/-- The escape marker, `ESC` (R8). -/
abbrev Wire.ESC : Byte := 0xDB#8

/-- The escape-of-marker code, `ESC_MARK` (R8). -/
abbrev Wire.ESC_MARK : Byte := 0xDC#8

/-- The escape-of-escape code, `ESC_ESC` (R8). -/
abbrev Wire.ESC_ESC : Byte := 0xDD#8

/-- The middle byte of the termination frame, `EXIT_BYTE` (R8, R84; 90_conflicts.md C1). -/
abbrev Wire.EXIT_BYTE : Byte := 0xFF#8

/-- The command kinds `K_DATA` to `K_HW` and `K_EXIT` (R8, R86). -/
abbrev Kind.DATA : Nibble := 0x0#4
abbrev Kind.TXDELAY : Nibble := 0x1#4
abbrev Kind.PERSIST : Nibble := 0x2#4
abbrev Kind.SLOTTIME : Nibble := 0x3#4
abbrev Kind.TXTAIL : Nibble := 0x4#4
abbrev Kind.FULLDUP : Nibble := 0x5#4
abbrev Kind.HW : Nibble := 0x6#4
abbrev Kind.EXIT : Nibble := 0xF#4

/-- Milliseconds per protocol tick, `TICK_MS` (R8, R90). -/
abbrev Config.TICK_MS : Nat := 10

/-- The largest admitted time value in milliseconds (R9 `TIME_W`, R135). -/
abbrev Config.TIME_MAX : Nat := 2559

/-- The largest port index (R9 `PORT_BITS`, R131). -/
abbrev Config.PORT_MAX : Nat := 15

/-- The six optional fields of `ENC_CFG` (R34), under their names there. -/
inductive OptField where
  | fd
  | hw
  | pers
  | slot
  | txd
  | txt
  deriving DecidableEq, Repr

/-- The default `INIT_ORDER` (R9, R138). -/
def Config.defaultInitOrder : List OptField := [.fd, .hw, .pers, .slot, .txd, .txt]

/-- The parameters a model takes as arguments (R9). They stand in State as plain data that no step writes, so that a
claim about every state is a claim about every value of them (log 8, DESIGN CHOICE). -/
structure Params where
  /-- `BUF_CAP`, `none` for unbounded (R9, U3). -/
  bufCap : Option Nat
  /-- `HW_MAX`, `none` for unbounded (R9, U4). -/
  hwMax : Option Nat
  /-- `INIT_ORDER` (R9, R138, U5). -/
  initOrder : List OptField
  deriving DecidableEq, Repr

/-- The block of KT: a growable buffer, no limit on `hardware`, the default order (R9, R53). -/
def Params.default : Params := { bufCap := none, hwMax := none, initOrder := Config.defaultInitOrder }

/-- The ranges R9 gives the parameters: `BUF_CAP` at least 1 or unbounded, `INIT_ORDER` a permutation of the six fields. -/
abbrev Params.legal (p : Params) : Prop :=
  (∀ c, p.bufCap = some c → 1 ≤ c) ∧ p.initOrder.Perm Config.defaultInitOrder

/-- FREE VALUE: `ENC.port` after `RESET` (R39 "unspecified", U1; log 10), for the draw given. -/
opaque Config.freePort : Nat → Nibble

/-- FREE VALUE: `ENC.cmd[k]` after `RESET` (R39 "unspecified", U1; log 10), for the draw and the index given. -/
opaque Config.freeCmd : Nat → Nat → Byte

/-- FREE VALUE: `ENC.pre[k]` after `RESET` (R39 "unspecified", U1; log 10), for the draw and the index given. -/
opaque Config.freePre : Nat → Nat → Byte

/-- FREE VALUE: what the buffer memory holds after `BufOverflow` (R195 "unspecified", U2; log 11), for the draw given. -/
opaque Config.freeBuf : Nat → List Byte

end Sys2Proof
end

