-- ==== Sys2Proof/Syntax.lean ====
section
/-! DEFINITION. The operations of the block (30_encoding.md R101, R103), one constructor per row of spec/opcode_table.json,
their operands, and the encoded forms in which the outside presents them (30_encoding.md R98 to R100). -/

namespace Sys2Proof

/-- The four input channels (20_memory.md R50, R65). -/
inductive InChannel where
  | escIn
  | unescIn
  | encIn
  | decIn
  deriving DecidableEq, Repr

/-- The four output channels (20_memory.md R50, R65). -/
inductive OutChannel where
  | escOut
  | unescOut
  | encOut
  | decOut
  deriving DecidableEq, Repr

/-- The output channels that carry `END` tokens (10_state.md R30). -/
inductive EndChannel where
  | escOut
  | unescOut
  deriving DecidableEq, Repr

/-- The operand of `ENC.OPEN` (10_state.md R34): an absent field is `none`, its presence bit being 0. -/
structure EncCfg where
  port : Option Byte
  fd : Option Bool
  hw : Option (List Byte)
  pers : Option Byte
  slot : Option Millis
  txd : Option Millis
  txt : Option Millis
  deriving DecidableEq, Repr

/-- The operations, one constructor per row of spec/opcode_table.json (30_encoding.md R103). -/
inductive Instr where
  /-- `MARK`: the wire byte 0xC0 reaches the decoder. -/
  | mark
  /-- `ESC`: the wire byte 0xDB in content. -/
  | esc
  /-- `ESC_MARK`: the wire byte 0xDC directly after an opening `ESC`. -/
  | escMark
  /-- `ESC_ESC`: the wire byte 0xDD directly after an opening `ESC`. -/
  | escEsc
  /-- `ESC_BAD`: any other content byte directly after an opening `ESC`. -/
  | escBad (b : Byte)
  /-- `LIT`: a content byte that stands for itself. -/
  | lit (b : Byte)
  /-- `CMD`: the first byte of a run, port nibble and kind nibble. -/
  | cmd (port kind : Nibble)
  /-- `DATA`: a command byte of kind 0. -/
  | data (port : Nibble)
  /-- `TXDELAY`: a command byte of kind 1. -/
  | txDelay (port : Nibble)
  /-- `PERSIST`: a command byte of kind 2. -/
  | persist (port : Nibble)
  /-- `SLOTTIME`: a command byte of kind 3. -/
  | slotTime (port : Nibble)
  /-- `TXTAIL`: a command byte of kind 4. -/
  | txTail (port : Nibble)
  /-- `FULLDUP`: a command byte of kind 5. -/
  | fullDup (port : Nibble)
  /-- `SETHW`: a command byte of kind 6. -/
  | setHw (port : Nibble)
  /-- `RESERVED_KIND_7` to `RESERVED_KIND_14`: command bytes of the kinds KT lists no meaning for (R93). -/
  | reservedKind7 (port : Nibble)
  | reservedKind8 (port : Nibble)
  | reservedKind9 (port : Nibble)
  | reservedKind10 (port : Nibble)
  | reservedKind11 (port : Nibble)
  | reservedKind12 (port : Nibble)
  | reservedKind13 (port : Nibble)
  | reservedKind14 (port : Nibble)
  /-- `EXIT`: the command byte 0xFF. -/
  | exit
  /-- `KIND_F_OTHER_PORT`: a command byte of kind 15 with a port other than 15. -/
  | kindFOtherPort (port : Nibble)
  /-- `ESCAPE s` (T-level). -/
  | escape (s : List Byte)
  /-- `UNESCAPE w` (T-level). -/
  | unescape (w : List Byte)
  /-- `ENC.OPEN cfg`. -/
  | encOpen (cfg : EncCfg)
  /-- `ENC.WRITE p` (T-level). -/
  | encWrite (p : List Byte)
  /-- `ENC.CLOSE` (T-level). -/
  | encClose
  /-- `DEC.CHUNK c` (T-level). -/
  | decChunk (c : List Byte)
  /-- `DEC.END` (T-level). -/
  | decEnd
  /-- `RESET`, with the levels of the straps dec_cfg_ecb and dec_cfg_eob at its release (10_state.md R35). -/
  | reset (ecb eob : Bool)
  /-- `ESC.BYTE b` (B-level). -/
  | escByte (b : Byte)
  /-- `ESC.END` (B-level). -/
  | escEnd
  /-- `UNESC.BYTE b` (B-level). -/
  | unescByte (b : Byte)
  /-- `UNESC.END` (B-level). -/
  | unescEnd
  /-- `ENC.BYTE b` (B-level). -/
  | encByte (b : Byte)
  /-- `ENC.EOW` (B-level). -/
  | encEow
  /-- `ENC.EOS` (B-level). -/
  | encEos
  /-- `DEC.BYTE b` (B-level). -/
  | decByte (b : Byte)
  /-- `DEC.CEND` (B-level). -/
  | decCend
  /-- `DEC.EOS` (B-level). -/
  | decEos
  /-- `RESERVED_BEAT_11`: a beat of kind 11 on an input channel, with its data bits. -/
  | reservedBeat11 (ch : InChannel) (d : Byte)
  /-- `OUT.BYTE b`: a data token transferred from an output channel to its consumer. -/
  | outByte (ch : OutChannel) (b : Byte)
  /-- `OUT.END`: an `END` token transferred from esc_out or unesc_out. -/
  | outEnd (ch : EndChannel)
  /-- `OUT.EOM`: an `EOM` token transferred from dec_out. -/
  | outEom
  /-- `OUT.HDR p`: a header token transferred from dec_out. -/
  | outHdr (p : Nibble)
  deriving DecidableEq, Repr

/-- Where in the decoder's input a wire byte stands: the class of a byte depends on it (30_encoding.md R80). -/
inductive Position where
  /-- Before the first byte of a run. -/
  | runStart
  /-- In content, not directly after an opening `ESC`. -/
  | content
  /-- In content, directly after an opening `ESC`. -/
  | afterEsc
  deriving DecidableEq, Repr

/-- The `ENC_CFG` pins as they are driven (10_state.md R34, 30_encoding.md R100): a presence bit and a value each; `hw_len` is
the length of `hw`. -/
structure EncPins where
  portPresent : Bool
  port : Byte
  fdPresent : Bool
  fd : Bool
  hwPresent : Bool
  hw : List Byte
  persPresent : Bool
  pers : Byte
  slotPresent : Bool
  slot : Millis
  txdPresent : Bool
  txd : Millis
  txtPresent : Bool
  txt : Millis
  deriving DecidableEq, Repr

/-- One operation in encoded form, as the outside presents it to the block. -/
inductive Presentation where
  /-- A wire byte on wire-in, read as a class of R80 (table format wire-byte, and `CMD`). -/
  | wire (b : Byte)
  /-- A wire byte on wire-in, a command byte among them read by its kind (R86, table format command-byte). -/
  | command (b : Byte)
  /-- One beat on an input channel (R98). -/
  | beat (ch : InChannel) (w : Beat)
  /-- A T-level call: the whole token sequence of one transaction on an input channel (R30 to R32). -/
  | call (ch : InChannel) (ws : List Beat)
  /-- The record on the `ENC_CFG` pins with enc_open_valid (R100). -/
  | encOpen (pins : EncPins)
  /-- `rst` asserted and released, with the strap levels at release (R220, R35). -/
  | rst (ecb eob : Bool)
  /-- The consumer of an output channel ready for one beat (R65). -/
  | take (ch : OutChannel) (w : Beat)
  deriving DecidableEq, Repr

end Sys2Proof
end

