-- ==== Sys2Proof/WellFormed.lean ====
section
/-! DEFINITION. Which operands an operation may have (30_encoding.md R80, R85, R86, R92) and at which position of the
decoder's input a wire row stands (R80). Every other operand range is the operand's type. -/

namespace Sys2Proof

/-- The operand checks of R80 (`LIT`, `ESC_BAD`, `CMD`: the values each class leaves out) and R86, R92 (the command byte 0xC0 is
`MARK`, so `DATA` of port 12 is no byte of its own on wire-in; 0xFF is `EXIT`). -/
def Instr.wellFormed : Instr → Bool
  | .mark => true
  | .esc => true
  | .escMark => true
  | .escEsc => true
  | .escBad b => b != Wire.MARK && b != Wire.ESC_MARK && b != Wire.ESC_ESC
  | .lit b => b != Wire.MARK && b != Wire.ESC
  | .cmd port kind => !(port == 12#4 && kind == Kind.DATA)
  | .data port => port != 12#4
  | .txDelay _ => true
  | .persist _ => true
  | .slotTime _ => true
  | .txTail _ => true
  | .fullDup _ => true
  | .setHw _ => true
  | .reservedKind7 _ => true
  | .reservedKind8 _ => true
  | .reservedKind9 _ => true
  | .reservedKind10 _ => true
  | .reservedKind11 _ => true
  | .reservedKind12 _ => true
  | .reservedKind13 _ => true
  | .reservedKind14 _ => true
  | .exit => true
  | .kindFOtherPort port => port != 15#4
  | .escape _ => true
  | .unescape _ => true
  | .encOpen _ => true
  | .encWrite _ => true
  | .encClose => true
  | .decChunk _ => true
  | .decEnd => true
  | .reset _ _ => true
  | .escByte _ => true
  | .escEnd => true
  | .unescByte _ => true
  | .unescEnd => true
  | .encByte _ => true
  | .encEow => true
  | .encEos => true
  | .decByte _ => true
  | .decCend => true
  | .decEos => true
  | .reservedBeat11 _ _ => true
  | .outByte _ _ => true
  | .outEnd _ => true
  | .outEom => true
  | .outHdr _ => true

/-- The position column of R80; operations that are no wire byte stand anywhere. -/
def Instr.standsAt : Instr → Position → Bool
  | .mark, _ => true
  | .esc, p => p == .content
  | .escMark, p => p == .afterEsc
  | .escEsc, p => p == .afterEsc
  | .escBad _, p => p == .afterEsc
  | .lit _, p => p == .content
  | .cmd _ _, p => p == .runStart
  | .data _, p => p == .runStart
  | .txDelay _, p => p == .runStart
  | .persist _, p => p == .runStart
  | .slotTime _, p => p == .runStart
  | .txTail _, p => p == .runStart
  | .fullDup _, p => p == .runStart
  | .setHw _, p => p == .runStart
  | .reservedKind7 _, p => p == .runStart
  | .reservedKind8 _, p => p == .runStart
  | .reservedKind9 _, p => p == .runStart
  | .reservedKind10 _, p => p == .runStart
  | .reservedKind11 _, p => p == .runStart
  | .reservedKind12 _, p => p == .runStart
  | .reservedKind13 _, p => p == .runStart
  | .reservedKind14 _, p => p == .runStart
  | .exit, p => p == .runStart
  | .kindFOtherPort _, p => p == .runStart
  | .escape _, _ => true
  | .unescape _, _ => true
  | .encOpen _, _ => true
  | .encWrite _, _ => true
  | .encClose, _ => true
  | .decChunk _, _ => true
  | .decEnd, _ => true
  | .reset _ _, _ => true
  | .escByte _, _ => true
  | .escEnd, _ => true
  | .unescByte _, _ => true
  | .unescEnd, _ => true
  | .encByte _, _ => true
  | .encEow, _ => true
  | .encEos, _ => true
  | .decByte _, _ => true
  | .decCend, _ => true
  | .decEos, _ => true
  | .reservedBeat11 _ _, _ => true
  | .outByte _ _, _ => true
  | .outEnd _, _ => true
  | .outEom, _ => true
  | .outHdr _, _ => true

end Sys2Proof
end

