-- ==== Sys2Proof/Decode.lean ====
section
/-! DEFINITION. The decoder: from a presented encoded form and the decoder unit's position to an operation, or a rejection by
name; then the encoder; then the reading of spec/opcode_table.json's words. Total, from 30_encoding.md R80, R85, R86, R87, R98
to R100 and 10_state.md R30 to R32. -/

namespace Sys2Proof

/-- Why an encoded form names no operation. -/
inductive DecodeError where
  /-- Kind 10 on esc_in or unesc_in: it names no token (R99). -/
  | reservedKind10
  /-- A beat that the output channel never carries (R98, R99). -/
  | noSuchOutput
  /-- A T-level call whose beats are not data beats closed by one delimiter of its channel (R30 to R32). -/
  | malformedCall
  deriving DecidableEq, Repr

/-! ### Fields of a command byte and of a beat -/

/-- Command byte assembly, `(port << 4) | kind` (R85, R88). -/
def cmdByte (port kind : Nibble) : Byte := (port.setWidth 8 <<< 4) ||| kind.setWidth 8

/-- The port field of a command byte, bits 7:4, `c >> 4` (R85, R89). -/
def portOf (c : Byte) : Nibble := (c >>> 4).setWidth 4

/-- The kind field of a command byte, bits 3:0 (R85). -/
def kindOf (c : Byte) : Nibble := c.setWidth 4

/-- Bits 9:8 of a beat (R98). -/
def beatKind (w : Beat) : BeatKind := (w >>> 8).setWidth 2

/-- Bits 7:0 of a beat (R98). -/
def beatData (w : Beat) : Byte := w.setWidth 8

/-- A beat from its kind and data bits (R98). -/
def mkBeat (k : BeatKind) (d : Byte) : Beat := (k.setWidth 10 <<< 8) ||| d.setWidth 10

/-- The beat of `BYTE(b)`, `00bbbbbbbb` (R98). -/
def byteBeat (b : Byte) : Beat := mkBeat 0#2 b

/-- The beat of `END`, `EOW`, `CEND`, `EOM`, 0x100 (R98). -/
def closeBeat : Beat := mkBeat 1#2 0#8

/-- The beat of `EOS`, 0x200 (R98). -/
def eosBeat : Beat := mkBeat 2#2 0#8

/-! ### The decoder -/

/-- The wire class of a byte at a position (R80): first the boundary, then the command byte, then the escape (R199). -/
def wireClass (pos : Position) (b : Byte) : Instr :=
  if b = Wire.MARK then .mark
  else match pos with
    | .runStart => .cmd (portOf b) (kindOf b)
    | .content => if b = Wire.ESC then .esc else .lit b
    | .afterEsc =>
      if b = Wire.ESC_MARK then .escMark else if b = Wire.ESC_ESC then .escEsc else .escBad b

/-- The row of a command byte by its kind (R86); 0xFF is `EXIT`, which takes precedence (R84, R103). -/
def commandRow (b : Byte) : Instr :=
  if b = Wire.EXIT_BYTE then .exit
  else match (kindOf b).toNat with
    | 0 => .data (portOf b)
    | 1 => .txDelay (portOf b)
    | 2 => .persist (portOf b)
    | 3 => .slotTime (portOf b)
    | 4 => .txTail (portOf b)
    | 5 => .fullDup (portOf b)
    | 6 => .setHw (portOf b)
    | 7 => .reservedKind7 (portOf b)
    | 8 => .reservedKind8 (portOf b)
    | 9 => .reservedKind9 (portOf b)
    | 10 => .reservedKind10 (portOf b)
    | 11 => .reservedKind11 (portOf b)
    | 12 => .reservedKind12 (portOf b)
    | 13 => .reservedKind13 (portOf b)
    | 14 => .reservedKind14 (portOf b)
    | _ => .kindFOtherPort (portOf b)  -- 15, the one value left of 4 bits

/-- A wire byte with its command byte read by kind: at the start of a run the rows of R86, elsewhere the classes of R80. -/
def commandClass (pos : Position) (b : Byte) : Instr :=
  match wireClass pos b with
  | .cmd _ _ => commandRow b
  | i => i

/-- One input beat (R98); data bits of a token that carries none are ignored; kind 11, and kind 10 on esc_in and unesc_in, are
reserved (R99; log 20). -/
def decodeBeat (ch : InChannel) (w : Beat) : Except DecodeError Instr :=
  match (beatKind w).toNat with
  | 0 => .ok (match ch with
    | .escIn => .escByte (beatData w)
    | .unescIn => .unescByte (beatData w)
    | .encIn => .encByte (beatData w)
    | .decIn => .decByte (beatData w))
  | 1 => .ok (match ch with
    | .escIn => .escEnd
    | .unescIn => .unescEnd
    | .encIn => .encEow
    | .decIn => .decCend)
  | 2 => match ch with
    | .escIn => .error .reservedKind10
    | .unescIn => .error .reservedKind10
    | .encIn => .ok .encEos
    | .decIn => .ok .decEos
  | _ => .ok (.reservedBeat11 ch (beatData w))  -- 11, the one value left of 2 bits

/-- A token sequence `BYTE(s[0]) … BYTE(s[n-1])` and its delimiter: the data bytes and the delimiter's kind. -/
def splitCall : List Beat → Option (List Byte × BeatKind)
  | [] => none
  | [w] => if beatKind w = 0#2 then none else some ([], beatKind w)
  | w :: v :: ws =>
    if beatKind w = 0#2 then (splitCall (v :: ws)).map fun (s, k) => (beatData w :: s, k) else none

/-- A T-level call (R30 to R32, R114, R115, R139, R140, R161, R165). -/
def decodeCall (ch : InChannel) (ws : List Beat) : Except DecodeError Instr :=
  match splitCall ws with
  | none => .error .malformedCall
  | some (s, k) =>
    if k = 1#2 then
      .ok (match ch with
        | .escIn => .escape s
        | .unescIn => .unescape s
        | .encIn => .encWrite s
        | .decIn => .decChunk s)
    else if k = 2#2 && s.isEmpty then
      match ch with
      | .escIn => .error .malformedCall
      | .unescIn => .error .malformedCall
      | .encIn => .ok .encClose
      | .decIn => .ok .decEnd
    else .error .malformedCall

/-- The `ENC_CFG` record (R34): a field whose presence bit is 0 is absent, whatever its value pins carry (log 19). -/
def decodeCfg (p : EncPins) : EncCfg where
  port := if p.portPresent then some p.port else none
  fd := if p.fdPresent then some p.fd else none
  hw := if p.hwPresent then some p.hw else none
  pers := if p.persPresent then some p.pers else none
  slot := if p.slotPresent then some p.slot else none
  txd := if p.txdPresent then some p.txd else none
  txt := if p.txtPresent then some p.txt else none

/-- One output beat (R98): `END` and `EOM` carry data 0, `HDR` bits 7:4 zero; enc_out carries only bytes; the rest is never
produced (R99). -/
def decodeTake (ch : OutChannel) (w : Beat) : Except DecodeError Instr :=
  if beatKind w = 0#2 then .ok (.outByte ch (beatData w))
  else if w = closeBeat then
    match ch with
    | .escOut => .ok (.outEnd .escOut)
    | .unescOut => .ok (.outEnd .unescOut)
    | .encOut => .error .noSuchOutput
    | .decOut => .ok .outEom
  else if beatKind w = 2#2 && portOf (beatData w) == 0#4 && ch == .decOut then .ok (.outHdr (kindOf (beatData w)))
  else .error .noSuchOutput

/-- The operation an encoded form names, at a position of the decoder's input. -/
def decode (pos : Position) : Presentation → Except DecodeError Instr
  | .wire b => .ok (wireClass pos b)
  | .command b => .ok (commandClass pos b)
  | .beat ch w => decodeBeat ch w
  | .call ch ws => decodeCall ch ws
  | .encOpen pins => .ok (.encOpen (decodeCfg pins))
  | .rst ecb eob => .ok (.reset ecb eob)
  | .take ch w => decodeTake ch w

/-! ### The encoder -/

/-- The pins of a record; the value pins of an absent field are 0. -/
def encodeCfg (c : EncCfg) : EncPins where
  portPresent := c.port.isSome
  port := c.port.getD 0#8
  fdPresent := c.fd.isSome
  fd := c.fd.getD false
  hwPresent := c.hw.isSome
  hw := c.hw.getD []
  persPresent := c.pers.isSome
  pers := c.pers.getD 0#8
  slotPresent := c.slot.isSome
  slot := c.slot.getD 0#12
  txdPresent := c.txd.isSome
  txd := c.txd.getD 0#12
  txtPresent := c.txt.isSome
  txt := c.txt.getD 0#12

/-- The token sequence of a T-level call whose delimiter is `END`, `EOW` or `CEND` (R30 to R32). -/
def callBeats (s : List Byte) : List Beat := s.map byteBeat ++ [closeBeat]

/-- The encoded form of an operation (R80, R86, R98, R100, R101). -/
def encode : Instr → Presentation
  | .mark => .wire Wire.MARK
  | .esc => .wire Wire.ESC
  | .escMark => .wire Wire.ESC_MARK
  | .escEsc => .wire Wire.ESC_ESC
  | .escBad b => .wire b
  | .lit b => .wire b
  | .cmd port kind => .wire (cmdByte port kind)
  | .data port => .command (cmdByte port 0x0#4)
  | .txDelay port => .command (cmdByte port 0x1#4)
  | .persist port => .command (cmdByte port 0x2#4)
  | .slotTime port => .command (cmdByte port 0x3#4)
  | .txTail port => .command (cmdByte port 0x4#4)
  | .fullDup port => .command (cmdByte port 0x5#4)
  | .setHw port => .command (cmdByte port 0x6#4)
  | .reservedKind7 port => .command (cmdByte port 0x7#4)
  | .reservedKind8 port => .command (cmdByte port 0x8#4)
  | .reservedKind9 port => .command (cmdByte port 0x9#4)
  | .reservedKind10 port => .command (cmdByte port 0xA#4)
  | .reservedKind11 port => .command (cmdByte port 0xB#4)
  | .reservedKind12 port => .command (cmdByte port 0xC#4)
  | .reservedKind13 port => .command (cmdByte port 0xD#4)
  | .reservedKind14 port => .command (cmdByte port 0xE#4)
  | .exit => .command Wire.EXIT_BYTE
  | .kindFOtherPort port => .command (cmdByte port 0xF#4)
  | .escape s => .call .escIn (callBeats s)
  | .unescape w => .call .unescIn (callBeats w)
  | .encOpen cfg => .encOpen (encodeCfg cfg)
  | .encWrite p => .call .encIn (callBeats p)
  | .encClose => .call .encIn [eosBeat]
  | .decChunk c => .call .decIn (callBeats c)
  | .decEnd => .call .decIn [eosBeat]
  | .reset ecb eob => .rst ecb eob
  | .escByte b => .beat .escIn (byteBeat b)
  | .escEnd => .beat .escIn closeBeat
  | .unescByte b => .beat .unescIn (byteBeat b)
  | .unescEnd => .beat .unescIn closeBeat
  | .encByte b => .beat .encIn (byteBeat b)
  | .encEow => .beat .encIn closeBeat
  | .encEos => .beat .encIn eosBeat
  | .decByte b => .beat .decIn (byteBeat b)
  | .decCend => .beat .decIn closeBeat
  | .decEos => .beat .decIn eosBeat
  | .reservedBeat11 ch d => .beat ch (mkBeat 3#2 d)
  | .outByte ch b => .take ch (byteBeat b)
  | .outEnd .escOut => .take .escOut closeBeat
  | .outEnd .unescOut => .take .unescOut closeBeat
  | .outEom => .take .decOut closeBeat
  | .outHdr p => .take .decOut (mkBeat 2#2 (cmdByte 0#4 p))

/-! ### The opcode table's words -/

/-- DESIGN CHOICE (log 4): a beat does not say which channel it is on (R98), so a table word carries the channel in bits 12:10,
above the beat: 0 dec_in, 1 enc_in, 2 esc_in, 3 unesc_in, 4 esc_out, 5 unesc_out, 6 enc_out, 7 dec_out. -/
def presentBeat (sel : Nat) (w : Beat) : Option Presentation :=
  match sel with
  | 0 => some (.beat .decIn w)
  | 1 => some (.beat .encIn w)
  | 2 => some (.beat .escIn w)
  | 3 => some (.beat .unescIn w)
  | 4 => some (.take .escOut w)
  | 5 => some (.take .unescOut w)
  | 6 => some (.take .encOut w)
  | 7 => some (.take .decOut w)
  | _ => none

/-- The encoded form of a table word (log 4): up to 8 bits a wire byte, the four constants of R8 as wire classes and every other
value as a command byte (R103's match and mask); 9 to 16 bits a beat with its channel. -/
def presentTableWord (nbits w : Nat) : Option Presentation :=
  if nbits ≤ 8 then
    if w < 256 then
      let b := BitVec.ofNat 8 w
      if b = Wire.MARK || b = Wire.ESC || b = Wire.ESC_MARK || b = Wire.ESC_ESC then some (.wire b) else some (.command b)
    else none
  else if nbits ≤ 16 then presentBeat (w / 1024) (BitVec.ofNat 10 (w % 1024))
  else none

/-- The position at which an encoded form of `presentTableWord` is the row it matches (R80): `ESC` stands in content, its code
bytes directly after an opening `ESC`, the command bytes at the start of a run. -/
def tablePosition : Presentation → Position
  | .wire b => if b = Wire.ESC then .content else if b = Wire.ESC_MARK || b = Wire.ESC_ESC then .afterEsc else .runStart
  | .command _ => .runStart
  | .beat _ _ => .runStart
  | .call _ _ => .runStart
  | .encOpen _ => .runStart
  | .rst _ _ => .runStart
  | .take _ _ => .runStart

/-- The instruction of a table word, numbered as spec/opcode_table.json numbers its bits. -/
def decodeTableWord (nbits w : Nat) : Option Instr :=
  match presentTableWord nbits w with
  | none => none
  | some x => (decode (tablePosition x) x).toOption

end Sys2Proof
end

