-- ==== Sys2Proof/Machine/State.lean ====
section
/-! DEFINITION. The state of the block (10_state.md), its reset (10_state.md R39), and the reasons a step can stop. -/

namespace Sys2Proof.Machine

/-- Tokens of esc_out and unesc_out (10_state.md R30). -/
inductive EscToken where
  | byte (b : Byte)
  | close
  deriving DecidableEq, Repr

/-- Tokens of dec_out (10_state.md R32). -/
inductive DecToken where
  | hdr (port : Nibble)
  | byte (b : Byte)
  | eom
  deriving DecidableEq, Repr

/-- An output channel: its trace since reset (R33) and how many of its tokens the consumer has taken (R236, R65; log 6). -/
structure Out (α : Type) where
  trace : List α
  taken : Nat
  deriving DecidableEq, Repr

/-- A channel after reset: the trace is empty (R39). -/
def Out.empty {α : Type} : Out α := { trace := [], taken := 0 }

/-- The phases of the encoder (R24). -/
inductive EncState where
  | unconf
  | ready
  | inWrite
  | closed
  | error
  deriving DecidableEq, Repr

/-- `ENC.cmd[0..6]` (R25), each under the field's name of its kind (R86). -/
structure CmdRegs where
  data : Byte
  txDelay : Byte
  persist : Byte
  slotTime : Byte
  txTail : Byte
  fullDup : Byte
  setHw : Byte
  deriving DecidableEq, Repr

/-- `ENC.pre`, two bytes (R25). -/
structure FrameStart where
  marker : Byte
  command : Byte
  deriving DecidableEq, Repr

/-- The unit `ESC`: no state of its own (R22), an output channel. -/
structure Esc where
  out : Out EscToken
  deriving DecidableEq, Repr

/-- The unit `UNESC` (R23). -/
structure Unesc where
  pend : Bool
  out : Out EscToken
  deriving DecidableEq, Repr

/-- The unit `ENC` (R24 to R26, R130); `ENC.endm` is hardwired and has no storage (R25). -/
structure Enc where
  st : EncState
  port : Nibble
  cmd : CmdRegs
  pre : FrameStart
  err : Bool
  out : Out Byte
  deriving DecidableEq, Repr

/-- The unit `DEC` (R27 to R29, R35, R160); `DEC.st` is a function of `buf` (R28). -/
structure Dec where
  buf : List Byte
  ended : Bool
  ovf : Bool
  ecb : Bool
  eob : Bool
  out : Out DecToken
  deriving DecidableEq, Repr

/-- The machine: the four units, the block's parameters (R9; log 8), what the outside presents in the order of its transfers
(R62, R65; log 1), and the model's own counter of drawn free values (log 10). -/
structure State where
  params : Params
  esc : Esc
  unesc : Unesc
  enc : Enc
  dec : Dec
  env : List Presentation
  free : Nat
  deriving DecidableEq, Repr

/-- The block after reset (R39). DESIGN CHOICE: `ENC.port`, `ENC.cmd` and `ENC.pre`, which R39 leaves unspecified, are zero here
(log 9); the straps are 0, the value of an option not supplied (R35; log 18); the parameters are `Params.default` (log 8). -/
def State.reset : State where
  params := Params.default
  esc := { out := Out.empty }
  unesc := { pend := false, out := Out.empty }
  enc :=
    { st := .unconf
      port := 0#4
      cmd := { data := 0#8, txDelay := 0#8, persist := 0#8, slotTime := 0#8, txTail := 0#8, fullDup := 0#8, setHw := 0#8 }
      pre := { marker := 0#8, command := 0#8 }
      err := false
      out := Out.empty }
  dec := { buf := [], ended := false, ovf := false, ecb := false, eob := false, out := Out.empty }
  env := []
  free := 0

/-- Why an operation is not admitted: outcome (c) of R13, a stuck state and never a silent skip (R196). Every one is SAFE: the
model stops where the hardware never accepts the token. -/
inductive Fault where
  /-- `UNESCAPE` while a pair is open: R115 admits it between calls only (log 16). Raised by `UNESCAPE`. Safe. -/
  | unescMidCall
  /-- `ENC.OPEN` outside `UNCONF` (R131, R149). Raised by `ENC.OPEN`. Safe. -/
  | openNotUnconf (st : EncState)
  /-- `ENC.OPEN` with a valid port and a present time field above 2559 (R135, R149, U9). Raised by `ENC.OPEN`. Safe. -/
  | openTimeRange
  /-- `ENC.OPEN` with a valid port and `hw_len > HW_MAX` (R149). Raised by `ENC.OPEN`. Safe. -/
  | openHwLength
  /-- A write or close token in a state that does not admit it (R141, R144, R149). Raised by `ENC.WRITE`, `ENC.CLOSE`,
  `ENC.BYTE`, `ENC.EOW`, `ENC.EOS`. Safe. -/
  | encNotAdmitted (st : EncState)
  /-- A decoder token after the end of its stream (R180, D16). Raised by every decoder operation and wire row. Safe. -/
  | decEnded
  /-- A decoder token after `BufOverflow` (R180, D14). Raised by every decoder operation and wire row. Safe. -/
  | decOverflowed
  /-- A beat of a reserved kind (R99). Raised by `RESERVED_BEAT_11` and by a beat of kind 10 on esc_in or unesc_in. Safe. -/
  | reservedBeat
  /-- The channel does not offer this token next, `valid` is 0 for it (R65; log 6). Raised by `OUT.BYTE`, `OUT.END`, `OUT.EOM`,
  `OUT.HDR`. Safe. -/
  | notOffered
  deriving DecidableEq, Repr

/-- Why a presented form is refused. -/
inductive Refusal where
  /-- The instruction has no meaning yet; raised by an arm of exec only. Safe. -/
  | notModelled (mnemonic : String)
  /-- The encoded form names no operation of the spec; raised by step. Safe. -/
  | undecodable (e : DecodeError)
  deriving DecidableEq, Repr

/-- What a meaning answers. -/
abbrev Result := Host.Outcome State Fault Refusal

end Sys2Proof.Machine
end

