-- ==== Sys2Proof/Machine/Operands.lean ====
section
/-! DEFINITION. Operand assembly and the functions of the block on bytes and byte sequences: the escape table and its two
functions (40_escaper.md R110 to R113), value bytes (30_encoding.md R90, R91), the encoder's registers and frames
(10_state.md R25, 30_encoding.md R82 to R84, 41_encoder.md R131 to R140), message interpretation (42_decoder.md R166, R181). -/

namespace Sys2Proof.Machine

/-! ### The escape table -/

/-- `esc1` (R110). -/
def esc1 (b : Byte) : List Byte :=
  if b = Wire.MARK then [Wire.ESC, Wire.ESC_MARK]
  else if b = Wire.ESC then [Wire.ESC, Wire.ESC_ESC]
  else [b]

/-- `escape` (R111). -/
def escape (s : List Byte) : List Byte := s.flatMap esc1

/-- `unesc2` (R112). -/
def unesc2 (x : Byte) : List Byte :=
  if x = Wire.ESC_MARK then [Wire.MARK]
  else if x = Wire.ESC_ESC then [Wire.ESC]
  else []

/-- `unescape` (R113): a trailing `ESC` is dropped (R96, D5; log 17), the partner of an `ESC` is never examined as an `ESC`. -/
def unescape : List Byte → List Byte
  | [] => []
  | [b] => if b = Wire.ESC then [] else [b]
  | b :: x :: w => if b = Wire.ESC then unesc2 x ++ unescape w else b :: unescape (x :: w)

/-! ### Value bytes -/

/-- `floor(v / 10)` as a byte (R90, D8; log 17); the quotient fits when `v` is at most 2559. -/
def timeValue (v : Millis) : Byte := BitVec.ofNat 8 (v.toNat / Config.TICK_MS)

/-- The value byte of `fullDuplex` (R91, R132, D10; log 17). -/
def fdValue (fd : Bool) : Byte := if fd then 0x01#8 else 0x00#8

/-! ### The encoder's port-derived registers -/

/-- `ENC.cmd[k] = (port << 4) | k` (R25, R88). -/
def cmdRegsOf (port : Nibble) : CmdRegs where
  data := cmdByte port Kind.DATA
  txDelay := cmdByte port Kind.TXDELAY
  persist := cmdByte port Kind.PERSIST
  slotTime := cmdByte port Kind.SLOTTIME
  txTail := cmdByte port Kind.TXTAIL
  fullDup := cmdByte port Kind.FULLDUP
  setHw := cmdByte port Kind.HW

/-- `ENC.pre = [MARK, ENC.cmd[0]]` (R25). -/
def frameStartOf (port : Nibble) : FrameStart where
  marker := Wire.MARK
  command := cmdByte port Kind.DATA

/-- `ENC.cmd[k]` by its index (R25). -/
def CmdRegs.get (c : CmdRegs) (k : Fin 7) : Byte :=
  match k with
  | 0 => c.data
  | 1 => c.txDelay
  | 2 => c.persist
  | 3 => c.slotTime
  | 4 => c.txTail
  | 5 => c.fullDup
  | 6 => c.setHw

/-- The two bytes of `ENC.pre` in the order in which they are sent (R25, R54). -/
def FrameStart.bytes (p : FrameStart) : List Byte := [p.marker, p.command]

/-- `ENC.endm`, hardwired to `MARK` (R25). -/
def Enc.endm (_ : Enc) : Byte := Wire.MARK

/-! ### Frames -/

/-- The layout `[marker, commandByte, value-bytes…, marker]`, the value bytes not escaped (R83). -/
def commandFrame (command : Byte) (value : List Byte) : List Byte := [Wire.MARK, command] ++ value ++ [Wire.MARK]

/-- The data frame of a payload (R82, R139). -/
def Enc.dataFrame (e : Enc) (p : List Byte) : List Byte := e.pre.bytes ++ escape p ++ [e.endm]

/-- The termination frame, for every port (R84). -/
def exitFrame : List Byte := [Wire.MARK, Wire.EXIT_BYTE, Wire.MARK]

/-- The initialisation frame of a present field, none of an absent one (R132 to R134). -/
def fieldFrame (command : Byte) : Option (List Byte) → List Byte
  | some value => commandFrame command value
  | none => []

/-- The value bytes of a time field: none when it is absent or 0 (R135, D9; log 17). -/
def timeBytes : Option Millis → Option (List Byte)
  | some v => if v = 0#12 then none else some [timeValue v]
  | none => none

/-- `initframe(f, cfg)` (R132 to R137). -/
def initFrame (c : CmdRegs) (cfg : EncCfg) : OptField → List Byte
  | .fd => fieldFrame c.fullDup (cfg.fd.map fun v => [fdValue v])
  | .hw => fieldFrame c.setHw cfg.hw
  | .pers => fieldFrame c.persist (cfg.pers.map fun v => [v])
  | .slot => fieldFrame c.slotTime (timeBytes cfg.slot)
  | .txd => fieldFrame c.txDelay (timeBytes cfg.txd)
  | .txt => fieldFrame c.txTail (timeBytes cfg.txt)

/-- The initialisation frames in the order `INIT_ORDER` (R131, R138). -/
def initFrames (order : List OptField) (c : CmdRegs) (cfg : EncCfg) : List Byte := order.flatMap (initFrame c cfg)

/-- The port test of `ENC.OPEN` (R131, R191): present and at most 15. -/
def validPort : Option Byte → Option Nibble
  | some v => if v.toNat ≤ Config.PORT_MAX then some (v.setWidth 4) else none
  | none => none

/-- The precondition of a time field (R135): absent or at most 2559. -/
def timeFits : Option Millis → Bool
  | some v => v.toNat ≤ Config.TIME_MAX
  | none => true

/-- All three time fields fit (R135 to R137). -/
def timesFit (cfg : EncCfg) : Bool := timeFits cfg.slot && timeFits cfg.txd && timeFits cfg.txt

/-- `hw_len` is at most `HW_MAX` (R133, R149). -/
def hwFits (hwMax : Option Nat) (cfg : EncCfg) : Bool :=
  match hwMax, cfg.hw with
  | some m, some hw => hw.length ≤ m
  | some _, none => true
  | none, _ => true

/-! ### Messages -/

/-- `interpret(run)` (R166 to R169) serialised as in R181: command byte raw, content unescaped, object mode before command-byte
mode. No caller passes an empty run. -/
def message (ecb eob : Bool) : List Byte → List DecToken
  | [] => []
  | cmd :: content =>
    let data := (unescape content).map DecToken.byte
    if eob then [.hdr (portOf cmd)] ++ data ++ [.eom]
    else if ecb then [.byte cmd] ++ data ++ [.eom]
    else data ++ [.eom]

/-! ### The chunk rule of R161 -/

/-- Whether one more byte fits a buffer of the given fill (R51; log 21). -/
def fits (bufCap : Option Nat) (fill : Nat) : Bool :=
  match bufCap with
  | some c => fill < c
  | none => true

/-- Step 1 of R161 (R162): a chunk that begins with a boundary closes the buffered run. Answers the runs closed and the buffer
left. -/
def chunkStep1 (buf c : List Byte) : List (List Byte) × List Byte :=
  if c.head? = some Wire.MARK ∧ buf ≠ [] then ([buf], []) else ([], buf)

/-- Step 2 of R161 (R163), scanning left to right with the buffer and the candidate run so far. Answers the runs closed, the
buffer left and the trailing bytes. -/
def chunkStep2 (buf run : List Byte) : List Byte → List (List Byte) × List Byte × List Byte
  | [] => ([], buf, run)
  | b :: c =>
    if b = Wire.MARK then
      if run = [] then chunkStep2 buf [] c
      else ((buf ++ run) :: (chunkStep2 [] [] c).1, (chunkStep2 [] [] c).2)
    else chunkStep2 buf (run ++ [b]) c

/-- Steps 1 to 3 of R161, in order (R199 (e)): the runs closed, and the buffer with the trailing bytes appended. -/
def chunkRuns (buf c : List Byte) : List (List Byte) × List Byte :=
  let first := chunkStep1 buf c
  let scan := chunkStep2 first.2 [] c
  (first.1 ++ scan.1, scan.2.1 ++ scan.2.2)

/-- The part of a chunk before the byte that overflows, and whether there is one, by the count of R176 and R195: the current run,
the part left by earlier chunks (`fill`) included (log 13). -/
def chunkFitting (bufCap : Option Nat) (fill : Nat) : List Byte → List Byte × Bool
  | [] => ([], false)
  | b :: c =>
    if b = Wire.MARK then (b :: (chunkFitting bufCap 0 c).1, (chunkFitting bufCap 0 c).2)
    else if fits bufCap fill then (b :: (chunkFitting bufCap (fill + 1) c).1, (chunkFitting bufCap (fill + 1) c).2)
    else ([], true)

end Sys2Proof.Machine
end

