-- ==== Sys2Proof/Machine/Flags.lean ====
section
/-! DEFINITION. The status flags of 10_state.md R37: their next values, the FSM state that follows a buffer, the decoder's
position, and the tests that read flags before an operation is admitted. -/

namespace Sys2Proof.Machine

/-- The next value of `UNESC.pend` for a byte (R118): set by an `ESC` while 0, cleared by any byte while 1. -/
def pendNext (pend : Bool) (b : Byte) : Bool := !pend && b == Wire.ESC

/-- The bytes `UNESC` emits for a byte (R118). -/
def unescEmits (pend : Bool) (b : Byte) : List Byte :=
  if pend then unesc2 b else if b = Wire.ESC then [] else [b]

/-- Whether a content ends directly after an opening `ESC`: the scan of R113 has just passed one (R124). -/
def escPending (content : List Byte) : Bool := content.foldl pendNext false

/-- `DEC.st` (R28). -/
inductive DecState where
  | idle
  | accum
  deriving DecidableEq, Repr

/-- `DEC.st` is a function of `DEC.buf` (R28, R40 I2). -/
def Dec.st (d : Dec) : DecState := if d.buf = [] then .idle else .accum

/-- Where the next wire byte stands (R80): before the first byte of a run, in content, or after an opening `ESC`. -/
def Dec.position (d : Dec) : Position :=
  match d.buf with
  | [] => .runStart
  | _ :: content => if escPending content then .afterEsc else .content

/-- The admission test of every decoder operation, `DEC.ended = 0` and `DEC.ovf = 0` (R180, R199 (h)): the fault of a decoder
that admits nothing. -/
def Dec.notAdmitting (d : Dec) : Option Fault :=
  if d.ended then some .decEnded else if d.ovf then some .decOverflowed else none

/-- The status outputs enc_err, dec_ovf and dec_accum (R65, R198). -/
def State.statusEncErr (s : State) : Bool := s.enc.err
def State.statusDecOvf (s : State) : Bool := s.dec.ovf
def State.statusDecAccum (s : State) : Bool := s.dec.st == .accum

end Sys2Proof.Machine
end

