-- ==== Sys2Proof/Machine/Ops.lean ====
section
/-! DEFINITION. The shared operations over the units: emitting and taking tokens (10_state.md R33, 20_memory.md R65), the buffer
primitives (20_memory.md R51, R52), taking the two fatal conditions (60_exceptions.md R191, R195, R200) and the only way back
from them, reset (60_exceptions.md R201, 70_reset_and_hazards.md R220). -/

namespace Sys2Proof.Machine

/-! ### Output channels -/

/-- `emit U.out, t`: appends to the trace, in order, within the current step (R12, R33; log 7). -/
def Out.emit {α : Type} (o : Out α) (ts : List α) : Out α := { o with trace := o.trace ++ ts }

/-- The token a channel offers its consumer next (R65). -/
def Out.offered {α : Type} (o : Out α) : Option α := o.trace[o.taken]?

/-- One token transferred to the consumer (R65); the trace keeps it (R33). -/
def Out.advance {α : Type} (o : Out α) : Out α := { o with taken := o.taken + 1 }

/-- The consumer takes the token `t`, which must be the one offered (log 6). -/
def Out.take? {α : Type} [DecidableEq α] (o : Out α) (t : α) : Option (Out α) :=
  if o.offered = some t then some o.advance else none

/-- `BYTE(y)` for each `y`, in order (R114 to R118). -/
def escBytes (ys : List Byte) : List EscToken := ys.map .byte

/-- `emit` on each unit's channel: esc_out, unesc_out, enc_out, dec_out (R12, R30 to R33). -/
def State.emitEsc (s : State) (ts : List EscToken) : State := { s with esc := { s.esc with out := s.esc.out.emit ts } }
def State.emitUnesc (s : State) (ts : List EscToken) : State := { s with unesc := { s.unesc with out := s.unesc.out.emit ts } }
def State.emitEnc (s : State) (bs : List Byte) : State := { s with enc := { s.enc with out := s.enc.out.emit bs } }
def State.emitDec (s : State) (ts : List DecToken) : State := { s with dec := { s.dec with out := s.dec.out.emit ts } }

/-- The FSM state register of a unit takes a value (R12 "pc <- target"). -/
def State.setPend (s : State) (p : Bool) : State := { s with unesc := { s.unesc with pend := p } }
def State.setEncSt (s : State) (st : EncState) : State := { s with enc := { s.enc with st := st } }

/-! ### The partial-frame buffer -/

/-- The one writer of `DEC.buf` besides overflow and reset (R27). -/
def State.setBuf (s : State) (buf : List Byte) : State := { s with dec := { s.dec with buf := buf } }

/-- `BufAppend(b)` (R51), its precondition tested by the caller. -/
def State.bufAppend (s : State) (b : Byte) : State := s.setBuf (s.dec.buf ++ [b])

/-- `emit DEC.out, interpret(BufTake())` when a run is buffered, nothing for an empty run (R52, R95, R170, R193). -/
def State.closeRun (s : State) : State :=
  if s.dec.buf = [] then s else (s.emitDec (message s.dec.ecb s.dec.eob s.dec.buf)).setBuf []

/-- `DEC.ended <- 1` (R165). -/
def State.setEnded (s : State) : State := { s with dec := { s.dec with ended := true } }

/-! ### The fatal conditions -/

/-- `ConfigError` (R191): `ENC.st <- ERROR`, `ENC.err <- 1` and nothing else (R200; log 12, log 14). -/
def State.raiseConfigError (s : State) : State := { s with enc := { s.enc with st := .error, err := true } }

/-- What the buffer holds after an overflow: a free value within what R40 (I1, I3) leaves it, no `MARK` and at most `BUF_CAP`
bytes (R195, U2; log 11). -/
def overflowedBuf (bufCap : Option Nat) (draw : Nat) : List Byte :=
  let bytes := (Config.freeBuf draw).filter (· != Wire.MARK)
  match bufCap with
  | some c => bytes.take c
  | none => bytes

/-- `BufOverflow` (R195): `DEC.ovf <- 1`, `DEC.buf` unspecified, and nothing else (R200; log 14). -/
def State.raiseBufOverflow (s : State) : State :=
  { s with
    dec := { s.dec with buf := overflowedBuf s.params.bufCap s.free, ovf := true }
    free := s.free + 1 }

/-! ### Reset -/

/-- The value of the encoder after `RESET` (R39): the port-derived registers unspecified, so free values (U1; log 10). -/
def resetEnc (draw : Nat) : Enc where
  st := .unconf
  port := Config.freePort draw
  cmd :=
    { data := Config.freeCmd draw 0
      txDelay := Config.freeCmd draw 1
      persist := Config.freeCmd draw 2
      slotTime := Config.freeCmd draw 3
      txTail := Config.freeCmd draw 4
      fullDup := Config.freeCmd draw 5
      setHw := Config.freeCmd draw 6 }
  pre := { marker := Config.freePre draw 0, command := Config.freePre draw 1 }
  err := false
  out := Out.empty

/-- `RESET` (R220, R39): every state element of the four units, in any state; the straps loaded at release (R35); what the
outside still presents, and the block's parameters, stay (log 24). -/
def State.resetBlock (s : State) (ecb eob : Bool) : State :=
  { s with
    esc := { out := Out.empty }
    unesc := { pend := false, out := Out.empty }
    enc := resetEnc s.free
    dec := { buf := [], ended := false, ovf := false, ecb := ecb, eob := eob, out := Out.empty }
    free := s.free + 1 }

/-! ### Intake of the decoder -/

/-- An operation of the decoder runs only when the decoder admits it (R180, R199 (h)). -/
def whenDecAdmits (s : State) (t : State) : Result :=
  match s.dec.notAdmitting with
  | some f => .fault f
  | none => .next t

/-- One wire byte into the decoder (R170): first the boundary (R199 (a), (g)), then the capacity, then the append. -/
def State.takeByte (s : State) (b : Byte) : State :=
  if b = Wire.MARK then s.closeRun
  else if fits s.params.bufCap s.dec.buf.length then s.bufAppend b
  else s.raiseBufOverflow

/-- One wire byte, when the decoder admits it. -/
def decIntake (b : Byte) (s : State) : Result := whenDecAdmits s (s.takeByte b)

/-- The end of the input stream (R165, R172): a buffered run is flushed. -/
def decFinish (s : State) : Result := whenDecAdmits s s.closeRun.setEnded

/-- One whole chunk (R161): KT's three steps on the part that fits, then the overflow if a byte does not (R195, R176; log 13). -/
def State.takeChunk (s : State) (c : List Byte) : State :=
  let fitting := chunkFitting s.params.bufCap s.dec.buf.length c
  let closed := chunkRuns s.dec.buf fitting.1
  let t := (s.emitDec (closed.1.flatMap (message s.dec.ecb s.dec.eob))).setBuf closed.2
  if fitting.2 then t.raiseBufOverflow else t

/-! ### The encoder -/

/-- The end of the payload stream, admitted in `READY` only (R140, R144). -/
def encFinish (s : State) : Result :=
  match s.enc.st with
  | .ready => .next ((s.emitEnc exitFrame).setEncSt .closed)
  | .unconf => .fault (.encNotAdmitted .unconf)
  | .inWrite => .fault (.encNotAdmitted .inWrite)
  | .closed => .fault (.encNotAdmitted .closed)
  | .error => .fault (.encNotAdmitted .error)

/-- A successful construction (R131): the port-derived registers, then every initialisation frame, then `READY`. -/
def State.construct (s : State) (port : Nibble) (cfg : EncCfg) : State :=
  { s with
    enc :=
      { s.enc with
        st := .ready
        port := port
        cmd := cmdRegsOf port
        pre := frameStartOf port
        out := s.enc.out.emit (initFrames s.params.initOrder (cmdRegsOf port) cfg) } }

end Sys2Proof.Machine
end

