-- ==== Sys2Proof/Machine/Command.lean ====
section
/-! DEFINITION. The command byte rows of 30_encoding.md R86: the command byte of a frame of that kind reaches the decoder, which
takes every kind alike (42_decoder.md R174; 30_encoding.md R93; log 5). The encoder's side of the kinds 0 to 6 and of `EXIT` is
`initFrame`, `Enc.dataFrame` and `exitFrame`. -/

namespace Sys2Proof.Machine

/-- `DATA` (R139, R174). -/
def execData (port : Nibble) (s : State) : Result := decIntake (cmdByte port Kind.DATA) s

/-- `TXDELAY` (R136, R174). -/
def execTxDelay (port : Nibble) (s : State) : Result := decIntake (cmdByte port Kind.TXDELAY) s

/-- `PERSIST` (R134, R174). -/
def execPersist (port : Nibble) (s : State) : Result := decIntake (cmdByte port Kind.PERSIST) s

/-- `SLOTTIME` (R135, R174). -/
def execSlotTime (port : Nibble) (s : State) : Result := decIntake (cmdByte port Kind.SLOTTIME) s

/-- `TXTAIL` (R137, R174). -/
def execTxTail (port : Nibble) (s : State) : Result := decIntake (cmdByte port Kind.TXTAIL) s

/-- `FULLDUP` (R132, R174). -/
def execFullDup (port : Nibble) (s : State) : Result := decIntake (cmdByte port Kind.FULLDUP) s

/-- `SETHW` (R133, R174). -/
def execSetHw (port : Nibble) (s : State) : Result := decIntake (cmdByte port Kind.HW) s

/-- `RESERVED_KIND_7` (R93, D29). -/
def execReservedKind7 (port : Nibble) (s : State) : Result := decIntake (cmdByte port 7#4) s

/-- `RESERVED_KIND_8` (R93, D29). -/
def execReservedKind8 (port : Nibble) (s : State) : Result := decIntake (cmdByte port 8#4) s

/-- `RESERVED_KIND_9` (R93, D29). -/
def execReservedKind9 (port : Nibble) (s : State) : Result := decIntake (cmdByte port 9#4) s

/-- `RESERVED_KIND_10` (R93, D29). -/
def execReservedKind10 (port : Nibble) (s : State) : Result := decIntake (cmdByte port 10#4) s

/-- `RESERVED_KIND_11` (R93, D29). -/
def execReservedKind11 (port : Nibble) (s : State) : Result := decIntake (cmdByte port 11#4) s

/-- `RESERVED_KIND_12` (R93, D29). -/
def execReservedKind12 (port : Nibble) (s : State) : Result := decIntake (cmdByte port 12#4) s

/-- `RESERVED_KIND_13` (R93, D29). -/
def execReservedKind13 (port : Nibble) (s : State) : Result := decIntake (cmdByte port 13#4) s

/-- `RESERVED_KIND_14` (R93, D29). -/
def execReservedKind14 (port : Nibble) (s : State) : Result := decIntake (cmdByte port 14#4) s

/-- `EXIT` (R84, R174): the decoder does not leave KISS mode on it. -/
def execExit (s : State) : Result := decIntake Wire.EXIT_BYTE s

/-- `KIND_F_OTHER_PORT` (R86, 90_conflicts.md C1). -/
def execKindFOtherPort (port : Nibble) (s : State) : Result := decIntake (cmdByte port Kind.EXIT) s

end Sys2Proof.Machine
end

