-- ==== Sys2Proof/Machine/Control.lean ====
section
/-! DEFINITION. `RESET` (70_reset_and_hazards.md R220 to R222), the reserved beat (30_encoding.md R99), and the output tokens taken by
their consumers (30_encoding.md R98, 42_decoder.md R181, 20_memory.md R65). -/

namespace Sys2Proof.Machine

/-- `RESET` (R220): in any state; a partial frame is discarded (R221, R222). -/
def execReset (ecb eob : Bool) (s : State) : Result := .next (s.resetBlock ecb eob)

/-- `RESERVED_BEAT_11` (R99): never admitted, on any input channel. -/
def execReservedBeat11 (_ : InChannel) (_ : Byte) (_ : State) : Result := .fault .reservedBeat

/-- The consumer of esc_out takes a token, if it is the one offered (R65; log 6). -/
def takeEsc (t : EscToken) (s : State) : Result :=
  match s.esc.out.take? t with
  | some o => .next { s with esc := { s.esc with out := o } }
  | none => .fault .notOffered

/-- The consumer of unesc_out takes a token, if it is the one offered (R65; log 6). -/
def takeUnesc (t : EscToken) (s : State) : Result :=
  match s.unesc.out.take? t with
  | some o => .next { s with unesc := { s.unesc with out := o } }
  | none => .fault .notOffered

/-- The consumer of enc_out takes a token, if it is the one offered (R65; log 6). -/
def takeEnc (b : Byte) (s : State) : Result :=
  match s.enc.out.take? b with
  | some o => .next { s with enc := { s.enc with out := o } }
  | none => .fault .notOffered

/-- The consumer of dec_out takes a token, if it is the one offered (R65; log 6). -/
def takeDec (t : DecToken) (s : State) : Result :=
  match s.dec.out.take? t with
  | some o => .next { s with dec := { s.dec with out := o } }
  | none => .fault .notOffered

/-- `OUT.BYTE b` on any output channel (R98; log 6). -/
def execOutByte (ch : OutChannel) (b : Byte) (s : State) : Result :=
  match ch with
  | .escOut => takeEsc (.byte b) s
  | .unescOut => takeUnesc (.byte b) s
  | .encOut => takeEnc b s
  | .decOut => takeDec (.byte b) s

/-- `OUT.END` on esc_out or unesc_out (R98, D28; log 6). -/
def execOutEnd (ch : EndChannel) (s : State) : Result :=
  match ch with
  | .escOut => takeEsc .close s
  | .unescOut => takeUnesc .close s

/-- `OUT.EOM` on dec_out (R181; log 6). -/
def execOutEom (s : State) : Result := takeDec .eom s

/-- `OUT.HDR p` on dec_out (R181; log 6). -/
def execOutHdr (p : Nibble) (s : State) : Result := takeDec (.hdr p) s

end Sys2Proof.Machine
end

