-- ==== Sys2Proof/Machine/Decoder.lean ====
section
/-! DEFINITION. The frame decoder `DEC` at both levels (42_decoder.md R161 to R173). -/

namespace Sys2Proof.Machine

/-- `DEC.CHUNK c` (R161 to R163). -/
def execDecChunk (c : List Byte) (s : State) : Result := whenDecAdmits s (s.takeChunk c)

/-- `DEC.END` (R165). -/
def execDecEnd (s : State) : Result := decFinish s

/-- `DEC.BYTE b` (R170). -/
def execDecByte (b : Byte) (s : State) : Result := decIntake b s

/-- `DEC.CEND` (R171): nothing. -/
def execDecCend (s : State) : Result := whenDecAdmits s s

/-- `DEC.EOS` (R172). -/
def execDecEos (s : State) : Result := decFinish s

end Sys2Proof.Machine
end

