-- ==== Sys2Proof/Machine/Encoder.lean ====
section
/-! DEFINITION. The frame encoder `ENC` at both levels (41_encoder.md R131 to R145). -/

namespace Sys2Proof.Machine

/-- `ENC.OPEN cfg` (R131): admitted in `UNCONF`; the port test first (R199 (f)); then the ranges that are not admitted (R135,
R149; log 23); then the construction. -/
def execEncOpen (cfg : EncCfg) (s : State) : Result :=
  match s.enc.st with
  | .unconf =>
    match validPort cfg.port with
    | none => .next s.raiseConfigError
    | some port =>
      if !timesFit cfg then .fault .openTimeRange
      else if !hwFits s.params.hwMax cfg then .fault .openHwLength
      else .next (s.construct port cfg)
  | .ready => .fault (.openNotUnconf .ready)
  | .inWrite => .fault (.openNotUnconf .inWrite)
  | .closed => .fault (.openNotUnconf .closed)
  | .error => .fault (.openNotUnconf .error)

/-- `ENC.WRITE p` (R139): admitted in `READY`. -/
def execEncWrite (p : List Byte) (s : State) : Result :=
  match s.enc.st with
  | .ready => .next (s.emitEnc (s.enc.dataFrame p))
  | .unconf => .fault (.encNotAdmitted .unconf)
  | .inWrite => .fault (.encNotAdmitted .inWrite)
  | .closed => .fault (.encNotAdmitted .closed)
  | .error => .fault (.encNotAdmitted .error)

/-- `ENC.CLOSE` (R140). -/
def execEncClose (s : State) : Result := encFinish s

/-- `ENC.BYTE b` (R142): the first byte of a write opens the frame. -/
def execEncByte (b : Byte) (s : State) : Result :=
  match s.enc.st with
  | .ready => .next ((s.emitEnc (s.enc.pre.bytes ++ esc1 b)).setEncSt .inWrite)
  | .inWrite => .next (s.emitEnc (esc1 b))
  | .unconf => .fault (.encNotAdmitted .unconf)
  | .closed => .fault (.encNotAdmitted .closed)
  | .error => .fault (.encNotAdmitted .error)

/-- `ENC.EOW` (R143). -/
def execEncEow (s : State) : Result :=
  match s.enc.st with
  | .ready => .next (s.emitEnc (s.enc.pre.bytes ++ [s.enc.endm]))
  | .inWrite => .next ((s.emitEnc [s.enc.endm]).setEncSt .ready)
  | .unconf => .fault (.encNotAdmitted .unconf)
  | .closed => .fault (.encNotAdmitted .closed)
  | .error => .fault (.encNotAdmitted .error)

/-- `ENC.EOS` (R144): not admitted inside a write. -/
def execEncEos (s : State) : Result := encFinish s

end Sys2Proof.Machine
end

