-- ==== Sys2Proof/Machine/Escaper.lean ====
section
/-! DEFINITION. The units `ESC` and `UNESC` at both levels (40_escaper.md R114 to R120). -/

namespace Sys2Proof.Machine

/-- `ESCAPE s` (R114). -/
def execEscape (s : List Byte) (σ : State) : Result := .next (σ.emitEsc (escBytes (escape s) ++ [.close]))

/-- `UNESCAPE w` (R115): admitted between calls, `UNESC.pend = 0` (log 16). -/
def execUnescape (w : List Byte) (s : State) : Result :=
  if s.unesc.pend then .fault .unescMidCall
  else .next ((s.emitUnesc (escBytes (unescape w) ++ [.close])).setPend false)

/-- `ESC.BYTE b` (R116). -/
def execEscByte (b : Byte) (s : State) : Result := .next (s.emitEsc (escBytes (esc1 b)))

/-- `ESC.END` (R117). -/
def execEscEnd (s : State) : Result := .next (s.emitEsc [.close])

/-- `UNESC.BYTE b` (R118). -/
def execUnescByte (b : Byte) (s : State) : Result :=
  .next ((s.emitUnesc (escBytes (unescEmits s.unesc.pend b))).setPend (pendNext s.unesc.pend b))

/-- `UNESC.END` (R120): a pending lone `ESC` is dropped. -/
def execUnescEnd (s : State) : Result := .next ((s.emitUnesc [.close]).setPend false)

end Sys2Proof.Machine
end

