-- ==== Sys2Proof/Machine/Wire.lean ====
section
/-! DEFINITION. The wire byte classes of 30_encoding.md R80: the byte of the class reaches the decoder from the transport
(42_decoder.md R170). A content byte is buffered as received and gets its class's value when its run is interpreted
(10_state.md R27, 42_decoder.md R166), which is why the classes share one intake (log 5). -/

namespace Sys2Proof.Machine

/-- `MARK` (R80, R170): always a boundary. -/
def execMark (s : State) : Result := decIntake Wire.MARK s

/-- `ESC` (R113). -/
def execEsc (s : State) : Result := decIntake Wire.ESC s

/-- `ESC_MARK` (R112). -/
def execEscMark (s : State) : Result := decIntake Wire.ESC_MARK s

/-- `ESC_ESC` (R112). -/
def execEscEsc (s : State) : Result := decIntake Wire.ESC_ESC s

/-- `ESC_BAD` (R94, R192). -/
def execEscBad (b : Byte) (s : State) : Result := decIntake b s

/-- `LIT` (R113). -/
def execLit (b : Byte) (s : State) : Result := decIntake b s

/-- `CMD` (R85, R166): the command byte is taken raw. -/
def execCmd (port kind : Nibble) (s : State) : Result := decIntake (cmdByte port kind) s

end Sys2Proof.Machine
end

