-- ==== Sys2Proof/Machine/Dispatch.lean ====
section
/-! DEFINITION. Dispatch: one arm per operation, each a direct call of its meaning. -/

namespace Sys2Proof.Machine

def exec (i : Instr) (s : State) : Host.Outcome State Fault Refusal :=
  match i with
  | .mark => Sys2Proof.Machine.execMark s
  | .esc => Sys2Proof.Machine.execEsc s
  | .escMark => Sys2Proof.Machine.execEscMark s
  | .escEsc => Sys2Proof.Machine.execEscEsc s
  | .escBad b => Sys2Proof.Machine.execEscBad b s
  | .lit b => Sys2Proof.Machine.execLit b s
  | .cmd port kind => Sys2Proof.Machine.execCmd port kind s
  | .data port => Sys2Proof.Machine.execData port s
  | .txDelay port => Sys2Proof.Machine.execTxDelay port s
  | .persist port => Sys2Proof.Machine.execPersist port s
  | .slotTime port => Sys2Proof.Machine.execSlotTime port s
  | .txTail port => Sys2Proof.Machine.execTxTail port s
  | .fullDup port => Sys2Proof.Machine.execFullDup port s
  | .setHw port => Sys2Proof.Machine.execSetHw port s
  | .reservedKind7 port => Sys2Proof.Machine.execReservedKind7 port s
  | .reservedKind8 port => Sys2Proof.Machine.execReservedKind8 port s
  | .reservedKind9 port => Sys2Proof.Machine.execReservedKind9 port s
  | .reservedKind10 port => Sys2Proof.Machine.execReservedKind10 port s
  | .reservedKind11 port => Sys2Proof.Machine.execReservedKind11 port s
  | .reservedKind12 port => Sys2Proof.Machine.execReservedKind12 port s
  | .reservedKind13 port => Sys2Proof.Machine.execReservedKind13 port s
  | .reservedKind14 port => Sys2Proof.Machine.execReservedKind14 port s
  | .exit => Sys2Proof.Machine.execExit s
  | .kindFOtherPort port => Sys2Proof.Machine.execKindFOtherPort port s
  | .escape bs => Sys2Proof.Machine.execEscape bs s
  | .unescape bs => Sys2Proof.Machine.execUnescape bs s
  | .encOpen cfg => Sys2Proof.Machine.execEncOpen cfg s
  | .encWrite bs => Sys2Proof.Machine.execEncWrite bs s
  | .encClose => Sys2Proof.Machine.execEncClose s
  | .decChunk bs => Sys2Proof.Machine.execDecChunk bs s
  | .decEnd => Sys2Proof.Machine.execDecEnd s
  | .reset ecb eob => Sys2Proof.Machine.execReset ecb eob s
  | .escByte b => Sys2Proof.Machine.execEscByte b s
  | .escEnd => Sys2Proof.Machine.execEscEnd s
  | .unescByte b => Sys2Proof.Machine.execUnescByte b s
  | .unescEnd => Sys2Proof.Machine.execUnescEnd s
  | .encByte b => Sys2Proof.Machine.execEncByte b s
  | .encEow => Sys2Proof.Machine.execEncEow s
  | .encEos => Sys2Proof.Machine.execEncEos s
  | .decByte b => Sys2Proof.Machine.execDecByte b s
  | .decCend => Sys2Proof.Machine.execDecCend s
  | .decEos => Sys2Proof.Machine.execDecEos s
  | .reservedBeat11 ch d => Sys2Proof.Machine.execReservedBeat11 ch d s
  | .outByte ch b => Sys2Proof.Machine.execOutByte ch b s
  | .outEnd ch => Sys2Proof.Machine.execOutEnd ch s
  | .outEom => Sys2Proof.Machine.execOutEom s
  | .outHdr p => Sys2Proof.Machine.execOutHdr p s

end Sys2Proof.Machine
end

