-- ==== Sys2Proof/Machine/Fetch.lean ====
section
/-! DEFINITION. What the block is presented next, and what becomes of a form that names no operation. -/

namespace Sys2Proof.Machine

/-- What the outside presents next (log 1): the operation, or the reason it is none, and the state in which it runs, with the
form consumed. `none` when nothing is presented. -/
def fetch (s : State) : Option (Except DecodeError Instr × State) :=
  match s.env with
  | [] => none
  | x :: rest => some (decode s.dec.position x, { s with env := rest })

/-- A form that names no operation: a reserved beat is never admitted (R99), anything else is refused by name. -/
def rejected : DecodeError → Result
  | .reservedKind10 => .fault .reservedBeat
  | .noSuchOutput => .refused (.undecodable .noSuchOutput)
  | .malformedCall => .refused (.undecodable .malformedCall)

/-- A unit with no token at its input is idle and keeps all its state (R208, R39; log 3). -/
def idle (s : State) : Result := .next s

/-- A buffer in which the next wire byte stands at the position given (R80): empty; a command byte; a command byte and an opening
`ESC`. -/
def bufferAt : Position → List Byte
  | .runStart => []
  | .content => [0x00#8]
  | .afterEsc => [0x00#8, Wire.ESC]

/-- The state with the decoder's input at a position; unchanged where it already is (log 4). -/
def State.atPosition (s : State) (p : Position) : State :=
  if s.dec.position = p then s else s.setBuf (bufferAt p)

/-- A presented form put first; a wire byte also needs the decoder's input at the position of its class (log 4). -/
def State.presentFirst (s : State) (x : Presentation) : State :=
  match x with
  | .wire b => { s.atPosition (if b = Wire.MARK then s.dec.position else tablePosition x) with env := x :: s.env }
  | .command _ => { s.atPosition .runStart with env := x :: s.env }
  | .beat _ _ => { s with env := x :: s.env }
  | .call _ _ => { s with env := x :: s.env }
  | .encOpen _ => { s with env := x :: s.env }
  | .rst _ _ => { s with env := x :: s.env }
  | .take _ _ => { s with env := x :: s.env }

/-- A table word presented first; a word of no row changes nothing. -/
def State.presentWord (s : State) (nbits w : Nat) : State :=
  match presentTableWord nbits w with
  | some x => s.presentFirst x
  | none => s

end Sys2Proof.Machine
end

