-- ==== Sys2Proof/Machine/Step.lean ====
section
/-! DEFINITION. One step of the machine: what is presented next is decoded and run (00_scope.md R7, R13; 60_exceptions.md R206). -/

namespace Sys2Proof.Machine

/-- One step: nothing presented, the block idles; an operation presented, it runs with its form consumed; a form that names no
operation is rejected. -/
def step (s : State) : Host.Outcome State Fault Refusal :=
  match fetch s with
  | none => idle s
  | some (.ok i, t) => exec i t
  | some (.error e, _) => rejected e

/-- `s` with a table word presented next, so that the very next step runs it (log 2, log 4). -/
def State.withFetchWord (s : State) (nbits w : Nat) : State := s.presentWord nbits w

end Sys2Proof.Machine
end

