-- ==== Sys2Proof/Machine/Run.lean ====
section
/-! DEFINITION. A sequence of operations applied one after another (00_scope.md R6 "program"), and the tests that say when an
operation is admitted (00_scope.md R13), written from the spec's own lists and not from the meanings; and whether a token waits
unadmitted at a unit's input (70_reset_and_hazards.md R236). -/

namespace Sys2Proof.Machine

/-- Operations in order, stopping at the first one that is not admitted. -/
def execAll : List Instr → State → Result
  | [], s => .next s
  | i :: is, s =>
    match exec i s with
    | .next t => execAll is t
    | .fault f => .fault f
    | .refused r => .refused r

/-- Decoder operations are admitted while `DEC.ended = 0` and `DEC.ovf = 0` (R180). -/
def decAdmits (s : State) : Bool := !s.dec.ended && !s.dec.ovf

/-- When `ENC.OPEN cfg` is admitted (R131, R135, R149): in `UNCONF`, and with a valid port only in the ranges. -/
def openAdmits (cfg : EncCfg) (s : State) : Bool :=
  s.enc.st == .unconf && ((validPort cfg.port).isNone || (timesFit cfg && hwFits s.params.hwMax cfg))

/-- Whether the block admits an operation in a state (R99, R114 to R120, R131 to R149, R161 to R173, R180, R220; R65 for the
output tokens): the `ready` of 20_memory.md R66 (a). -/
def admits : Instr → State → Bool
  | .mark, s => decAdmits s
  | .esc, s => decAdmits s
  | .escMark, s => decAdmits s
  | .escEsc, s => decAdmits s
  | .escBad _, s => decAdmits s
  | .lit _, s => decAdmits s
  | .cmd _ _, s => decAdmits s
  | .data _, s => decAdmits s
  | .txDelay _, s => decAdmits s
  | .persist _, s => decAdmits s
  | .slotTime _, s => decAdmits s
  | .txTail _, s => decAdmits s
  | .fullDup _, s => decAdmits s
  | .setHw _, s => decAdmits s
  | .reservedKind7 _, s => decAdmits s
  | .reservedKind8 _, s => decAdmits s
  | .reservedKind9 _, s => decAdmits s
  | .reservedKind10 _, s => decAdmits s
  | .reservedKind11 _, s => decAdmits s
  | .reservedKind12 _, s => decAdmits s
  | .reservedKind13 _, s => decAdmits s
  | .reservedKind14 _, s => decAdmits s
  | .exit, s => decAdmits s
  | .kindFOtherPort _, s => decAdmits s
  | .escape _, _ => true
  | .unescape _, s => !s.unesc.pend
  | .encOpen cfg, s => openAdmits cfg s
  | .encWrite _, s => s.enc.st == .ready
  | .encClose, s => s.enc.st == .ready
  | .decChunk _, s => decAdmits s
  | .decEnd, s => decAdmits s
  | .reset _ _, _ => true
  | .escByte _, _ => true
  | .escEnd, _ => true
  | .unescByte _, _ => true
  | .unescEnd, _ => true
  | .encByte _, s => s.enc.st == .ready || s.enc.st == .inWrite
  | .encEow, s => s.enc.st == .ready || s.enc.st == .inWrite
  | .encEos, s => s.enc.st == .ready
  | .decByte _, s => decAdmits s
  | .decCend, s => decAdmits s
  | .decEos, s => decAdmits s
  | .reservedBeat11 _ _, _ => false
  | .outByte .escOut b, s => s.esc.out.offered == some (.byte b)
  | .outByte .unescOut b, s => s.unesc.out.offered == some (.byte b)
  | .outByte .encOut b, s => s.enc.out.offered == some b
  | .outByte .decOut b, s => s.dec.out.offered == some (.byte b)
  | .outEnd .escOut, s => s.esc.out.offered == some .close
  | .outEnd .unescOut, s => s.unesc.out.offered == some .close
  | .outEom, s => s.dec.out.offered == some .eom
  | .outHdr p, s => s.dec.out.offered == some (.hdr p)

/-! ### Tokens that wait -/

/-- A form presented at an input of the encoder: enc_in or the `ENC_CFG` record (R50, R100). -/
def encInput : Presentation → Bool
  | .wire _ => false
  | .command _ => false
  | .beat ch _ => ch == .encIn
  | .call ch _ => ch == .encIn
  | .encOpen _ => true
  | .rst _ _ => false
  | .take _ _ => false

/-- A form presented at the decoder's input: a byte from the transport, or dec_in (R50, R170). -/
def decInput : Presentation → Bool
  | .wire _ => true
  | .command _ => true
  | .beat ch _ => ch == .decIn
  | .call ch _ => ch == .decIn
  | .encOpen _ => false
  | .rst _ _ => false
  | .take _ _ => false

/-- `RESET` presented (R220). -/
def isRst : Presentation → Bool
  | .wire _ => false
  | .command _ => false
  | .beat _ _ => false
  | .call _ _ => false
  | .encOpen _ => false
  | .rst _ _ => true
  | .take _ _ => false

/-- What an input is presented next, whatever the other units are presented before it; nothing past a `RESET`, which begins
another run (R221). -/
def nextInput (input : Presentation → Bool) : List Presentation → Option Presentation
  | [] => none
  | x :: xs => if isRst x then none else if input x then some x else nextInput input xs

/-- What an input is presented next is not admitted, so it waits (R13 (c), R196, R236); a form that names no operation is never
admitted (R99; log 20). -/
def tokenWaits (input : Presentation → Bool) (s : State) : Bool :=
  match nextInput input s.env with
  | none => false
  | some x =>
    match decode s.dec.position x with
    | .ok i => !admits i s
    | .error _ => true

end Sys2Proof.Machine
end

