-- ==== Sys2Proof/Safety.lean ====
section
/-! DEFINITION. The terms in which claims about the block are stated: which unit an operation belongs to (60_exceptions.md R206),
the invariants of 10_state.md R40 with the wire grammar of 30_encoding.md R81, and when a run is over (70_reset_and_hazards.md
R236). -/

namespace Sys2Proof

/-- The four hardware agents (R206). -/
inductive Agent where
  | esc
  | unesc
  | enc
  | dec
  deriving DecidableEq, Repr

/-- The unit an input channel belongs to (R50). -/
def InChannel.agent : InChannel → Agent
  | .escIn => .esc
  | .unescIn => .unesc
  | .encIn => .enc
  | .decIn => .dec

/-- The unit an output channel belongs to (R50). -/
def OutChannel.agent : OutChannel → Agent
  | .escOut => .esc
  | .unescOut => .unesc
  | .encOut => .enc
  | .decOut => .dec

/-- The unit whose channel an `END` token leaves. -/
def EndChannel.agent : EndChannel → Agent
  | .escOut => .esc
  | .unescOut => .unesc

/-- The unit an operation belongs to; none for `RESET`, which acts on all four (R220). -/
def Instr.agent : Instr → Option Agent
  | .mark => some .dec
  | .esc => some .dec
  | .escMark => some .dec
  | .escEsc => some .dec
  | .escBad _ => some .dec
  | .lit _ => some .dec
  | .cmd _ _ => some .dec
  | .data _ => some .dec
  | .txDelay _ => some .dec
  | .persist _ => some .dec
  | .slotTime _ => some .dec
  | .txTail _ => some .dec
  | .fullDup _ => some .dec
  | .setHw _ => some .dec
  | .reservedKind7 _ => some .dec
  | .reservedKind8 _ => some .dec
  | .reservedKind9 _ => some .dec
  | .reservedKind10 _ => some .dec
  | .reservedKind11 _ => some .dec
  | .reservedKind12 _ => some .dec
  | .reservedKind13 _ => some .dec
  | .reservedKind14 _ => some .dec
  | .exit => some .dec
  | .kindFOtherPort _ => some .dec
  | .escape _ => some .esc
  | .unescape _ => some .unesc
  | .encOpen _ => some .enc
  | .encWrite _ => some .enc
  | .encClose => some .enc
  | .decChunk _ => some .dec
  | .decEnd => some .dec
  | .reset _ _ => none
  | .escByte _ => some .esc
  | .escEnd => some .esc
  | .unescByte _ => some .unesc
  | .unescEnd => some .unesc
  | .encByte _ => some .enc
  | .encEow => some .enc
  | .encEos => some .enc
  | .decByte _ => some .dec
  | .decCend => some .dec
  | .decEos => some .dec
  | .reservedBeat11 ch _ => some ch.agent
  | .outByte ch _ => some ch.agent
  | .outEnd ch => some ch.agent
  | .outEom => some .dec
  | .outHdr _ => some .dec

/-- The unit an encoded form is presented to. -/
def Presentation.agent : Presentation → Option Agent
  | .wire _ => some .dec
  | .command _ => some .dec
  | .beat ch _ => some ch.agent
  | .call ch _ => some ch.agent
  | .encOpen _ => some .enc
  | .rst _ _ => none
  | .take ch _ => some ch.agent

/-- The wire byte of a wire row or command row (R80, R86). -/
def Instr.wireByte : Instr → Option Byte
  | .mark => some Wire.MARK
  | .esc => some Wire.ESC
  | .escMark => some Wire.ESC_MARK
  | .escEsc => some Wire.ESC_ESC
  | .escBad b => some b
  | .lit b => some b
  | .cmd port kind => some (cmdByte port kind)
  | .data port => some (cmdByte port 0x0#4)
  | .txDelay port => some (cmdByte port 0x1#4)
  | .persist port => some (cmdByte port 0x2#4)
  | .slotTime port => some (cmdByte port 0x3#4)
  | .txTail port => some (cmdByte port 0x4#4)
  | .fullDup port => some (cmdByte port 0x5#4)
  | .setHw port => some (cmdByte port 0x6#4)
  | .reservedKind7 port => some (cmdByte port 0x7#4)
  | .reservedKind8 port => some (cmdByte port 0x8#4)
  | .reservedKind9 port => some (cmdByte port 0x9#4)
  | .reservedKind10 port => some (cmdByte port 0xA#4)
  | .reservedKind11 port => some (cmdByte port 0xB#4)
  | .reservedKind12 port => some (cmdByte port 0xC#4)
  | .reservedKind13 port => some (cmdByte port 0xD#4)
  | .reservedKind14 port => some (cmdByte port 0xE#4)
  | .exit => some Wire.EXIT_BYTE
  | .kindFOtherPort port => some (cmdByte port 0xF#4)
  | .escape _ => none
  | .unescape _ => none
  | .encOpen _ => none
  | .encWrite _ => none
  | .encClose => none
  | .decChunk _ => none
  | .decEnd => none
  | .reset _ _ => none
  | .escByte _ => none
  | .escEnd => none
  | .unescByte _ => none
  | .unescEnd => none
  | .encByte _ => none
  | .encEow => none
  | .encEos => none
  | .decByte _ => none
  | .decCend => none
  | .decEos => none
  | .reservedBeat11 _ _ => none
  | .outByte _ _ => none
  | .outEnd _ => none
  | .outEom => none
  | .outHdr _ => none

/-- `RESET`, the one operation after which nothing survives (R221). -/
abbrev Instr.isReset (i : Instr) : Prop := i.agent = none

namespace Safety

open Machine

/-! ### The wire grammar of R81 -/

/-- An initialisation frame of a port: kind 1 to 6, the value bytes not escaped (R81, R83). -/
def IsInitFrame (port : Nibble) (f : List Byte) : Prop :=
  ∃ (k : Nibble) (value : List Byte), 1 ≤ k.toNat ∧ k.toNat ≤ 6 ∧ f = [Wire.MARK, cmdByte port k] ++ value ++ [Wire.MARK]

/-- A data frame of a port: command byte of kind 0, escaped payload (R81, R82). -/
def IsDataFrame (port : Nibble) (f : List Byte) : Prop :=
  ∃ payload : List Byte, f = [Wire.MARK, cmdByte port 0#4] ++ escape payload ++ [Wire.MARK]

/-- `init-frame* data-frame*` (R81), port fixed for the whole stream. -/
def IsOpenStream (port : Nibble) (w : List Byte) : Prop :=
  ∃ inits frames : List (List Byte),
    (∀ f ∈ inits, IsInitFrame port f) ∧ (∀ f ∈ frames, IsDataFrame port f) ∧ w = inits.flatten ++ frames.flatten

/-- What `ENC.out` holds in each encoder state (R81, R40 I6 and I7): complete frames, then in `INWRITE` one frame opened and not
closed, in `CLOSED` the termination frame, nothing before construction and after a failed one. -/
def WireOut (e : Enc) : Prop :=
  match e.st with
  | .unconf => e.out.trace = []
  | .error => e.out.trace = []
  | .ready => IsOpenStream e.port e.out.trace
  | .inWrite => ∃ w payload, IsOpenStream e.port w ∧ payload ≠ [] ∧
      e.out.trace = w ++ [Wire.MARK, cmdByte e.port 0#4] ++ escape payload
  | .closed => ∃ w, IsOpenStream e.port w ∧ e.out.trace = w ++ [Wire.MARK, Wire.EXIT_BYTE, Wire.MARK]

/-- What `DEC.out` holds (R179, R181): one serialised message for each of some non-empty runs, each free of `MARK`. -/
def MessagesOut (d : Dec) : Prop :=
  ∃ runs : List (List Byte), (∀ r ∈ runs, r ≠ [] ∧ Wire.MARK ∉ r) ∧ d.out.trace = runs.flatMap (message d.ecb d.eob)

/-- The port-derived registers agree with the port (R40 I5): `ENC.cmd[k] = 16 * port + k`, `ENC.pre = [0xC0, 16 * port]`. -/
def RegsAgree (e : Enc) : Prop :=
  (∀ k : Fin 7, (e.cmd.get k).toNat = 16 * e.port.toNat + k.val) ∧
    e.pre.marker = 0xC0#8 ∧ e.pre.command.toNat = 16 * e.port.toNat

/-- A consumer has taken no more than the channel has produced (R65). -/
def TakenFits {α : Type} (o : Out α) : Prop := o.taken ≤ o.trace.length

/-- The invariants of R40, with the grammar of R81 for I6 and I7, the messages of R179 and R181, and the consumers' counts. -/
structure Inv (s : State) : Prop where
  /-- I1. -/
  bufNoMark : Wire.MARK ∉ s.dec.buf
  /-- I3. -/
  bufFits : ∀ c, s.params.bufCap = some c → s.dec.buf.length ≤ c
  /-- I4. -/
  errIff : s.enc.err = true ↔ s.enc.st = .error
  /-- I5. -/
  regs : s.enc.st = .ready ∨ s.enc.st = .inWrite ∨ s.enc.st = .closed → RegsAgree s.enc
  /-- I6, I7. -/
  wire : WireOut s.enc
  messages : MessagesOut s.dec
  takenEsc : TakenFits s.esc.out
  takenUnesc : TakenFits s.unesc.out
  takenEnc : TakenFits s.enc.out
  takenDec : TakenFits s.dec.out

/-! ### The end of a run -/

/-- An encoder run is over (R236): closed or failed, every emitted byte taken, and no token waiting unadmitted. -/
def EncRunOver (s : State) : Prop :=
  (s.enc.st = .closed ∨ s.enc.st = .error) ∧ s.enc.out.taken = s.enc.out.trace.length ∧ tokenWaits encInput s = false

/-- A decoder run is over (R236): the stream ended, no overflow, every emitted token taken, and no token waiting unadmitted. -/
def DecRunOver (s : State) : Prop :=
  s.dec.ended = true ∧ s.dec.ovf = false ∧ s.dec.out.taken = s.dec.out.trace.length ∧ tokenWaits decInput s = false

end Safety

end Sys2Proof
end

