-- ==== Sys2Proof/Certificates/Slice0/Obligations.lean ====
section
/-! DEFINITION. The statements for the provers, each formalising rules of spec/ or derived from them. A claim that rests on a
decision of 92_eei_decisions.md or on a log entry says so in its docstring. -/

open Sys2Proof Sys2Proof.Machine Sys2Proof.Safety

/-! ### Encoding -/

/-- For every well-formed operation, at every position where it can stand, decoding its encoding gives it back, with every operand
(30_encoding.md R80, R86, R98 to R101). `DATA` of port 12, whose byte is `MARK` (R92), is the one command byte that is no
operation of its own on wire-in. -/
def Obligations.DecodeOfEncodeIsTheInstruction : Prop :=
  ∀ (i : Instr) (pos : Position), i.wellFormed = true → i.standsAt pos = true → decode pos (encode i) = .ok i

/-- Whatever is decoded is well-formed and stands at the position it was decoded at (R80, R92, R103): no encoding falls through
to an operand or a position its row leaves out. -/
def Obligations.DecodedInstructionIsWellFormedInItsPosition : Prop :=
  ∀ (pos : Position) (x : Presentation) (i : Instr), decode pos x = .ok i → i.wellFormed = true ∧ i.standsAt pos = true

/-- Words written out from the spec's encodings decode to the operations they stand for (R80, R84, R86, R98; the channel bits of
the table words and the tables' positions are log 4). -/
def Obligations.WordsOfTheSpecDecodeToTheirRows : Prop :=
  decode .content (.wire 0xC0#8) = .ok .mark ∧ decode .content (.wire 0xDB#8) = .ok .esc ∧
    decode .afterEsc (.wire 0xDC#8) = .ok .escMark ∧ decode .content (.wire 0xDC#8) = .ok (.lit 0xDC#8) ∧
    decode .runStart (.wire 0xDB#8) = .ok (.cmd 0xD#4 0xB#4) ∧ decode .runStart (.command 0xC3#8) = .ok (.slotTime 12#4) ∧
    decode .runStart (.command 0xFF#8) = .ok .exit ∧ decode .runStart (.beat .encIn 0x0C0#10) = .ok (.encByte 0xC0#8) ∧
    decode .runStart (.beat .decIn 0x200#10) = .ok .decEos ∧ decode .runStart (.beat .escIn 0x300#10) = .ok (.reservedBeat11 .escIn 0#8) ∧
    decode .runStart (.call .escIn [0x0C0#10, 0x0DB#10, 0x100#10]) = .ok (.escape [0xC0#8, 0xDB#8]) ∧
    decode .runStart (.take .decOut 0x20C#10) = .ok (.outHdr 12#4)

/-- The wire class of every byte at every position (R80): the boundary first, wherever it stands, then the command byte, then the
escape (R199 (a), (b)). -/
def Obligations.WireClassFollowsValueAndPosition : Prop :=
  ∀ b : Byte,
    (∀ pos, b = 0xC0#8 → decode pos (.wire b) = .ok .mark) ∧
      (b ≠ 0xC0#8 → ∃ port kind, decode .runStart (.wire b) = .ok (.cmd port kind) ∧ b.toNat = 16 * port.toNat + kind.toNat) ∧
      (b = 0xDB#8 → decode .content (.wire b) = .ok .esc) ∧
      (b ≠ 0xC0#8 → b ≠ 0xDB#8 → decode .content (.wire b) = .ok (.lit b)) ∧
      (b = 0xDC#8 → decode .afterEsc (.wire b) = .ok .escMark) ∧
      (b = 0xDD#8 → decode .afterEsc (.wire b) = .ok .escEsc) ∧
      (b ≠ 0xC0#8 → b ≠ 0xDC#8 → b ≠ 0xDD#8 → decode .afterEsc (.wire b) = .ok (.escBad b))

/-- R88 and R89: `cmd = (port << 4) | kind = 16 * port + kind`, and the port is recovered as `floor(cmd / 16)`. -/
def Obligations.CommandByteIsSixteenPortPlusKind : Prop :=
  (∀ port kind : Nibble, (cmdByte port kind).toNat = 16 * port.toNat + kind.toNat ∧ portOf (cmdByte port kind) = port) ∧
    ∀ c : Byte, (portOf c).toNat = c.toNat / 16

/-! ### The step -/

/-- What is presented first is decoded at the decoder's position and run with its form consumed; a form that names no operation is
rejected; with nothing presented the block idles (R208). The order of presentation is log 1, idling log 3. -/
def Obligations.StepRunsTheDecodedInstruction : Prop :=
  (∀ (s : State) (x : Presentation) (rest : List Presentation), s.env = x :: rest →
    (∀ i, decode s.dec.position x = .ok i → step s = exec i { s with env := rest }) ∧
      (∀ e, decode s.dec.position x = .error e → step s = rejected e)) ∧
    ∀ s : State, s.env = [] → step s = .next s

/-- A table word presented first is run by the very next step, in a state that differs from `s` at most in the decoder's buffer, and
there only to put the decoder's input at the position of the word's row (log 2, log 4). -/
def Obligations.PresentedTableWordRunsNext : Prop :=
  ∀ (s : State) (nbits w : Nat) (i : Instr), decodeTableWord nbits w = some i →
    ∃ buf, step (s.withFetchWord nbits w) = exec i { s with dec := { s.dec with buf := buf } } ∧
      i.standsAt ({ s.dec with buf := buf } : Dec).position = true ∧ (i.standsAt s.dec.position = true → buf = s.dec.buf)

/-- An operation runs to a next state exactly when the block admits it, by the spec's own lists (R99, R115, R131, R149, R180, R65);
no operation is refused. Rests on D14 to D16 and D24 of 92_eei_decisions.md, and on log 6 and log 16. -/
def Obligations.ExecCompletesExactlyWhenAdmitted : Prop :=
  ∀ (i : Instr) (s : State), ((∃ t, exec i s = .next t) ↔ admits i s = true) ∧ ∀ r, exec i s ≠ .refused r

/-- R99: a beat of kind 11 is admitted on no input channel and in no state, nor is kind 10 on esc_in and unesc_in. -/
def Obligations.ReservedBeatsAreNeverAdmitted : Prop :=
  (∀ (ch : InChannel) (d : Byte) (s : State), exec (.reservedBeat11 ch d) s = .fault .reservedBeat) ∧
    ∀ (s : State) (w : Beat) (rest : List Presentation), 0x200 ≤ w.toNat → w.toNat < 0x300 →
      s.env = .beat .escIn w :: rest ∨ s.env = .beat .unescIn w :: rest → step s = .fault .reservedBeat

/-! ### The escaper -/

/-- R110 and R111: the per-byte escape table, and `escape` as the concatenation over the bytes, each byte independent of its
neighbours. -/
def Obligations.EscapeReplacesEachReservedByte : Prop :=
  esc1 0xC0#8 = [0xDB#8, 0xDC#8] ∧ esc1 0xDB#8 = [0xDB#8, 0xDD#8] ∧ (∀ b, b ≠ 0xC0#8 → b ≠ 0xDB#8 → esc1 b = [b]) ∧
    escape [] = [] ∧ (∀ b s, escape (b :: s) = esc1 b ++ escape s) ∧ escape [0xDB#8, 0xDC#8] = [0xDB#8, 0xDD#8, 0xDC#8]

/-- R114, R116, R117: the three operations of `ESC` always complete, emit on esc_out and change nothing else. `END` is D28. -/
def Obligations.EscUnitEmitsAndKeepsNoState : Prop :=
  ∀ s : State,
    (∀ b, exec (.escByte b) s =
      .next { s with esc := { out := { s.esc.out with trace := s.esc.out.trace ++ (esc1 b).map EscToken.byte } } }) ∧
      exec .escEnd s = .next { s with esc := { out := { s.esc.out with trace := s.esc.out.trace ++ [EscToken.close] } } } ∧
      ∀ l, exec (.escape l) s =
        .next { s with esc := { out := { s.esc.out with
          trace := s.esc.out.trace ++ ((escape l).map EscToken.byte ++ [EscToken.close]) } } }

/-- R119: from every state, the tokens of a call do what the call does, and `escape` distributes over concatenation. -/
def Obligations.EscapeCallEqualsItsTokens : Prop :=
  (∀ (l : List Byte) (s : State), execAll (l.map .escByte ++ [.escEnd]) s = exec (.escape l) s) ∧
    ∀ l m : List Byte, escape (l ++ m) = escape l ++ escape m

/-- R121, KT's round trip; and its converse, which does not hold in general. -/
def Obligations.UnescapeInvertsEscape : Prop :=
  (∀ b : List Byte, unescape (escape b) = b) ∧ escape (unescape [0xDB#8, 0x00#8]) ≠ [0xDB#8, 0x00#8]

/-- R122 (a) to (e). -/
def Obligations.EscapeProperties : Prop :=
  (∀ s : List Byte, (0xC0#8 : Byte) ∉ escape s) ∧
    (∀ s : List Byte, (escape s).length = s.length + s.count 0xC0#8 + s.count 0xDB#8) ∧
    Function.Injective escape ∧
    escape (escape [0xC0#8]) = [0xDB#8, 0xDD#8, 0xDC#8] ∧
    ∀ s : List Byte, escape s = s ↔ (0xC0#8 : Byte) ∉ s ∧ (0xDB#8 : Byte) ∉ s

/-- R123 (a) to (d). The lone `ESC` of (c) rests on D5. -/
def Obligations.UnescapeProperties : Prop :=
  (∀ w : List Byte, (unescape w).length ≤ w.length) ∧
    (∀ w : List Byte, (0xDB#8 : Byte) ∉ w → unescape w = w) ∧
    (unescape [0xDB#8, 0xDD#8, 0xDC#8] = [0xDB#8, 0xDC#8] ∧ unescape [0xDB#8, 0xDC#8] = [0xC0#8]) ∧
    (unescape [] = [] ∧ unescape [0xDB#8] = [] ∧ unescape [0xDB#8, 0x00#8] = [] ∧ unescape [0xDB#8, 0xDB#8] = [])

/-- R112 and R113: the scan, left to right, an `ESC` consuming the byte after it. A trailing `ESC` is dropped by D5. -/
def Obligations.UnescapeScansLeftToRight : Prop :=
  unesc2 0xDC#8 = [0xC0#8] ∧ unesc2 0xDD#8 = [0xDB#8] ∧ (∀ x, x ≠ 0xDC#8 → x ≠ 0xDD#8 → unesc2 x = []) ∧
    unescape [] = [] ∧ (∀ b w, b ≠ 0xDB#8 → unescape (b :: w) = b :: unescape w) ∧
    (∀ x w, unescape (0xDB#8 :: x :: w) = unesc2 x ++ unescape w) ∧ unescape [0xDB#8] = []

/-- R94, R192, R210: wherever no pair is open, a malformed pair is dropped, both bytes, whatever follows, and its second byte opens
nothing. -/
def Obligations.MalformedPairIsDroppedWithoutRescan : Prop :=
  ∀ (w v : List Byte) (x : Byte), escPending w = false → x ≠ 0xDC#8 → x ≠ 0xDD#8 →
    unescape (w ++ [0xDB#8, x] ++ v) = unescape w ++ unescape v

/-- R118 and R120, the byte-serial unescaper by the value of `UNESC.pend`, always admitted, with its whole frame. Dropping a pending
`ESC` at `END` is D5. -/
def Obligations.UnescTokensFollowPend : Prop :=
  ∀ s : State,
    (s.unesc.pend = false → exec (.unescByte 0xDB#8) s = .next { s with unesc := { s.unesc with pend := true } }) ∧
      (∀ b, s.unesc.pend = false → b ≠ 0xDB#8 →
        exec (.unescByte b) s =
          .next { s with unesc := { pend := false, out := { s.unesc.out with trace := s.unesc.out.trace ++ [.byte b] } } }) ∧
      (∀ b, s.unesc.pend = true →
        exec (.unescByte b) s =
          .next { s with unesc :=
            { pend := false, out := { s.unesc.out with trace := s.unesc.out.trace ++ (unesc2 b).map EscToken.byte } } }) ∧
      exec .unescEnd s =
        .next { s with unesc := { pend := false, out := { s.unesc.out with trace := s.unesc.out.trace ++ [.close] } } }

/-- R115: between calls, `UNESC.pend = 0`, a call completes; inside one it is not admitted (log 16). -/
def Obligations.UnescapeCallRunsBetweenCalls : Prop :=
  ∀ (w : List Byte) (s : State),
    (s.unesc.pend = false →
      exec (.unescape w) s =
        .next { s with unesc :=
          { pend := false
            out := { s.unesc.out with trace := s.unesc.out.trace ++ ((unescape w).map EscToken.byte ++ [.close]) } } }) ∧
      (s.unesc.pend = true → exec (.unescape w) s = .fault .unescMidCall)

/-- R124: from `UNESC.pend = 0` the tokens of a call do what the call does; `unescape` does not distribute over concatenation. -/
def Obligations.UnescapeCallEqualsItsTokens : Prop :=
  (∀ (w : List Byte) (s : State), s.unesc.pend = false →
    execAll (w.map .unescByte ++ [.unescEnd]) s = exec (.unescape w) s) ∧
    unescape [0xDB#8] ++ unescape [0xDC#8] ≠ unescape ([0xDB#8] ++ [0xDC#8])

/-! ### The encoder -/

/-- R131, R191: with the port absent or above 15, whatever the other fields, construction fails: `ENC.st` and `ENC.err` change and
nothing else does (R200). That the port-derived registers keep their content is log 12. -/
def Obligations.OpenWithoutValidPortTakesConfigError : Prop :=
  ∀ (cfg : EncCfg) (s : State), s.enc.st = .unconf →
    cfg.port = none ∨ (∃ v, cfg.port = some v ∧ 15 < v.toNat) →
    exec (.encOpen cfg) s = .next { s with enc := { s.enc with st := .error, err := true } }

/-- R131, R25: with a valid port and every field in its range, construction loads the port-derived registers, emits the
initialisation frames in the order `INIT_ORDER`, reaches `READY`, and changes nothing else. The ranges are D7 and D12. -/
def Obligations.OpenWithValidPortConstructs : Prop :=
  ∀ (cfg : EncCfg) (v : Byte) (s : State), s.enc.st = .unconf → cfg.port = some v → v.toNat ≤ 15 →
    (∀ ms, cfg.slot = some ms ∨ cfg.txd = some ms ∨ cfg.txt = some ms → ms.toNat ≤ 2559) →
    (∀ m hw, s.params.hwMax = some m → cfg.hw = some hw → hw.length ≤ m) →
    ∃ t, exec (.encOpen cfg) s = .next t ∧ t.enc.st = .ready ∧ t.enc.port.toNat = v.toNat ∧
      (∀ k : Fin 7, (t.enc.cmd.get k).toNat = 16 * v.toNat + k.val) ∧
      t.enc.pre.bytes = [0xC0#8, t.enc.cmd.get 0] ∧
      t.enc.out.trace = s.enc.out.trace ++ s.params.initOrder.flatMap (initFrame t.enc.cmd cfg) ∧
      t.enc.out.taken = s.enc.out.taken ∧ t.enc.err = s.enc.err ∧ t = { s with enc := t.enc }

/-- R132 to R137: the initialisation frame of each field, its value bytes not escaped; none for an absent field. A time field of 0 is
not sent, any other in range is sent as its tenth. Rests on D8 to D11. -/
def Obligations.InitFramesCarryTheirValueBytes : Prop :=
  ∀ (c : CmdRegs) (cfg : EncCfg),
    ((cfg.fd = some true → initFrame c cfg .fd = [0xC0#8, c.get 5, 0x01#8, 0xC0#8]) ∧
      (cfg.fd = some false → initFrame c cfg .fd = [0xC0#8, c.get 5, 0x00#8, 0xC0#8]) ∧
      (cfg.fd = none → initFrame c cfg .fd = [])) ∧
    ((∀ hw, cfg.hw = some hw → initFrame c cfg .hw = [0xC0#8, c.get 6] ++ hw ++ [0xC0#8]) ∧
      (cfg.hw = none → initFrame c cfg .hw = [])) ∧
    ((∀ v, cfg.pers = some v → initFrame c cfg .pers = [0xC0#8, c.get 2, v, 0xC0#8]) ∧
      (cfg.pers = none → initFrame c cfg .pers = [])) ∧
    (∀ v : Millis, v ≠ 0#12 → v.toNat ≤ 2559 → ∃ q : Byte, q.toNat = v.toNat / 10 ∧
      (cfg.slot = some v → initFrame c cfg .slot = [0xC0#8, c.get 3, q, 0xC0#8]) ∧
      (cfg.txd = some v → initFrame c cfg .txd = [0xC0#8, c.get 1, q, 0xC0#8]) ∧
      (cfg.txt = some v → initFrame c cfg .txt = [0xC0#8, c.get 4, q, 0xC0#8])) ∧
    (cfg.slot = none ∨ cfg.slot = some 0#12 → initFrame c cfg .slot = []) ∧
    (cfg.txd = none ∨ cfg.txd = some 0#12 → initFrame c cfg .txd = []) ∧
    (cfg.txt = none ∨ cfg.txt = some 0#12 → initFrame c cfg .txt = [])

/-- R135, R149: construction is not admitted outside `UNCONF`, nor, with a valid port, with a time field above 2559 or a hardware
field longer than `HW_MAX` (D7, D12, D15). -/
def Obligations.OpenIsNotAdmittedOutsideItsRanges : Prop :=
  ∀ (cfg : EncCfg) (s : State),
    (s.enc.st ≠ .unconf → exec (.encOpen cfg) s = .fault (.openNotUnconf s.enc.st)) ∧
      ∀ v, s.enc.st = .unconf → cfg.port = some v → v.toNat ≤ 15 →
        ((∃ ms, (cfg.slot = some ms ∨ cfg.txd = some ms ∨ cfg.txt = some ms) ∧ 2559 < ms.toNat) →
          exec (.encOpen cfg) s = .fault .openTimeRange) ∧
        ((∀ ms, cfg.slot = some ms ∨ cfg.txd = some ms ∨ cfg.txt = some ms → ms.toNat ≤ 2559) →
          (∃ m hw, s.params.hwMax = some m ∧ cfg.hw = some hw ∧ m < hw.length) →
          exec (.encOpen cfg) s = .fault .openHwLength)

/-- R139: in `READY`, with the port-derived registers a construction leaves (R25), a write emits exactly one frame, marker, data
command byte `port << 4`, escaped payload, marker, and changes nothing else; in every other state it is not admitted; its encoding
is its payload's tokens and `EOW`. That a token not admitted stops the model by name is the model's choice, log 15. -/
def Obligations.WriteEmitsExactlyOneFrame : Prop :=
  ∀ (p : List Byte) (s : State),
    (s.enc.st = .ready → RegsAgree s.enc →
      ∃ c : Byte, c.toNat = 16 * s.enc.port.toNat ∧
        exec (.encWrite p) s =
          .next { s with enc := { s.enc with out := { s.enc.out with
            trace := s.enc.out.trace ++ ([0xC0#8, c] ++ escape p ++ [0xC0#8]) } } }) ∧
      (s.enc.st ≠ .ready → exec (.encWrite p) s = .fault (.encNotAdmitted s.enc.st)) ∧
      encode (.encWrite p) = .call .encIn (p.map (fun b => mkBeat 0#2 b) ++ [0x100#10])

/-- R146: two writes emit two independent frames, each with its own markers. -/
def Obligations.WritesAreNeverCoalesced : Prop :=
  ∀ (p q : List Byte) (s : State), s.enc.st = .ready → RegsAgree s.enc →
    ∃ c : Byte, c.toNat = 16 * s.enc.port.toNat ∧
      execAll [.encWrite p, .encWrite q] s =
        .next { s with enc := { s.enc with out := { s.enc.out with
          trace := s.enc.out.trace ++ ([0xC0#8, c] ++ escape p ++ [0xC0#8, 0xC0#8, c] ++ escape q ++ [0xC0#8]) } } }

/-- R140, R144, R84: in `READY` both forms of the shutdown emit `C0 FF C0`, for every port, and reach `CLOSED`; in every other state
they are not admitted (D15). -/
def Obligations.CloseEmitsTheTerminationFrame : Prop :=
  ∀ (i : Instr) (s : State), i = .encClose ∨ i = .encEos →
    (s.enc.st = .ready → exec i s =
      .next { s with enc := { s.enc with st := .closed, out := { s.enc.out with
        trace := s.enc.out.trace ++ [0xC0#8, 0xFF#8, 0xC0#8] } } }) ∧
      (s.enc.st ≠ .ready → exec i s = .fault (.encNotAdmitted s.enc.st))

/-- R142, R143 and the rows of R145: the payload tokens in `READY` and in `INWRITE`, with their whole frame; elsewhere they are not
admitted. When the prefix is emitted is D30, the states that do not admit are D15. -/
def Obligations.EncoderTokensFollowTheTransitionTable : Prop :=
  ∀ (b : Byte) (s : State),
    (s.enc.st = .ready →
      exec (.encByte b) s = .next { s with enc := { s.enc with st := .inWrite, out := { s.enc.out with
        trace := s.enc.out.trace ++ (s.enc.pre.bytes ++ esc1 b) } } } ∧
      exec .encEow s = .next { s with enc := { s.enc with out := { s.enc.out with
        trace := s.enc.out.trace ++ (s.enc.pre.bytes ++ [0xC0#8]) } } }) ∧
      (s.enc.st = .inWrite →
        exec (.encByte b) s = .next { s with enc := { s.enc with out := { s.enc.out with
          trace := s.enc.out.trace ++ esc1 b } } } ∧
        exec .encEow s = .next { s with enc := { s.enc with st := .ready, out := { s.enc.out with
          trace := s.enc.out.trace ++ [0xC0#8] } } }) ∧
      (s.enc.st ≠ .ready → s.enc.st ≠ .inWrite →
        exec (.encByte b) s = .fault (.encNotAdmitted s.enc.st) ∧ exec .encEow s = .fault (.encNotAdmitted s.enc.st))

/-- R148: from `READY`, the tokens of a write do what the write does. -/
def Obligations.WriteEqualsItsTokens : Prop :=
  ∀ (p : List Byte) (s : State), s.enc.st = .ready →
    execAll (p.map .encByte ++ [.encEow]) s = exec (.encWrite p) s

/-- R141, R191, R40 (I7): once shut down or failed, the encoder keeps its state and its output never grows, whatever operation other
than `RESET` runs. -/
def Obligations.ClosedOrFailedEncoderNeverEmits : Prop :=
  ∀ (i : Instr) (s t : State), exec i s = .next t → ¬ i.isReset → s.enc.st = .closed ∨ s.enc.st = .error →
    t.enc.st = s.enc.st ∧ t.enc.err = s.enc.err ∧ t.enc.out.trace = s.enc.out.trace

/-- R36: after construction the port-derived registers never change until reset, and the decoder's mode bits never change until
reset. That they do not change in `ERROR` either, where R191 and U1 leave them unspecified, is the model's reading (log 12). -/
def Obligations.ConfigurationIsImmutableUntilReset : Prop :=
  ∀ (i : Instr) (s t : State), exec i s = .next t → ¬ i.isReset →
    (s.enc.st ≠ .unconf → t.enc.port = s.enc.port ∧ t.enc.cmd = s.enc.cmd ∧ t.enc.pre = s.enc.pre) ∧
      t.dec.ecb = s.dec.ecb ∧ t.dec.eob = s.dec.eob

/-! ### The decoder -/

/-- R170: a byte into a decoder that admits it. The marker first: an empty run does nothing, a buffered run is emitted as one message
and the buffer emptied. Any other byte is appended if the buffer has room. -/
def Obligations.DecoderByteClosesOrAppends : Prop :=
  ∀ (b : Byte) (s : State), s.dec.ended = false → s.dec.ovf = false →
    (b = 0xC0#8 → s.dec.buf = [] → exec (.decByte b) s = .next s) ∧
      (b = 0xC0#8 → s.dec.buf ≠ [] → exec (.decByte b) s =
        .next { s with dec := { s.dec with buf := [], out := { s.dec.out with
          trace := s.dec.out.trace ++ message s.dec.ecb s.dec.eob s.dec.buf } } }) ∧
      (b ≠ 0xC0#8 → (∀ c, s.params.bufCap = some c → s.dec.buf.length < c) →
        exec (.decByte b) s = .next { s with dec := { s.dec with buf := s.dec.buf ++ [b] } })

/-- R195, R200: a byte other than the marker into a full buffer takes `BufOverflow`: `DEC.ovf` is set, nothing is emitted and nothing
else of the block changes but the buffer, whose content is a free value (D14; log 11, and log 10 for the counter). -/
def Obligations.FullBufferTakesBufOverflow : Prop :=
  ∀ (b : Byte) (s : State) (c : Nat), s.dec.ended = false → s.dec.ovf = false → b ≠ 0xC0#8 →
    s.params.bufCap = some c → c ≤ s.dec.buf.length →
    ∃ buf n, exec (.decByte b) s = .next { s with dec := { s.dec with buf := buf, ovf := true }, free := n }

/-- R80, R86, R170, R174: every wire row and command row is taken by the decoder as its byte: the operation completes wherever
`DEC.BYTE` of that byte does, with the same next state, the marker as a boundary (`MARK`, and `DATA` of port 12, R92), any other
byte buffered raw. That the rows are operations of the decoder is log 5. -/
def Obligations.WireRowsAreTakenAsTheirByte : Prop :=
  ∀ (i : Instr) (b : Byte) (s : State), i.wireByte = some b → s.dec.ended = false → s.dec.ovf = false →
    (b = 0xC0#8 → s.dec.buf = [] → exec i s = .next s) ∧
      (b = 0xC0#8 → s.dec.buf ≠ [] → exec i s =
        .next { s with dec := { s.dec with buf := [], out := { s.dec.out with
          trace := s.dec.out.trace ++ message s.dec.ecb s.dec.eob s.dec.buf } } }) ∧
      (b ≠ 0xC0#8 → (∀ c, s.params.bufCap = some c → s.dec.buf.length < c) →
        exec i s = .next { s with dec := { s.dec with buf := s.dec.buf ++ [b] } }) ∧
      (∀ c, b ≠ 0xC0#8 → s.params.bufCap = some c → c ≤ s.dec.buf.length →
        ∃ buf n, exec i s = .next { s with dec := { s.dec with buf := buf, ovf := true }, free := n })

/-- R87, R94, R112, R113: what each content class contributes to the data of its run. In content, an `ESC` and the code byte after it
stand for 0xC0 or 0xDB, an `ESC` and any other byte for nothing, a literal for itself; and the decoder is in content again. -/
def Obligations.ContentClassesContributeTheirData : Prop :=
  ∀ (s : State) (is : List Instr) (data : List Byte), s.dec.ended = false → s.dec.ovf = false →
    s.dec.position = .content → (∀ c, s.params.bufCap = some c → s.dec.buf.length + 2 ≤ c) →
    (is = [.esc, .escMark] ∧ data = [0xC0#8]) ∨ (is = [.esc, .escEsc] ∧ data = [0xDB#8]) ∨
      (∃ b, (Instr.escBad b).wellFormed = true ∧ is = [.esc, .escBad b] ∧ data = []) ∨
      (∃ b, (Instr.lit b).wellFormed = true ∧ is = [.lit b] ∧ data = [b]) →
    ∃ t, execAll is s = .next t ∧ t.dec.position = .content ∧ t.dec.buf.head? = s.dec.buf.head? ∧
      unescape t.dec.buf.tail = unescape s.dec.buf.tail ++ data ∧ t.dec.out = s.dec.out

/-- R166 to R169: the message of a run in the three output modes, the command byte raw, object mode before command-byte mode. -/
def Obligations.MessageShapeFollowsTheMode : Prop :=
  ∀ (cmd : Byte) (content : List Byte),
    message false false (cmd :: content) = (unescape content).map DecToken.byte ++ [.eom] ∧
      message true false (cmd :: content) = [DecToken.byte cmd] ++ (unescape content).map DecToken.byte ++ [.eom] ∧
      ∀ ecb, ∃ port : Nibble, port.toNat = cmd.toNat / 16 ∧
        message ecb true (cmd :: content) = [DecToken.hdr port] ++ (unescape content).map DecToken.byte ++ [.eom]

/-- R181: every message ends with exactly one `EOM`; in object mode it starts with exactly one `HDR`, in the other modes it has none. -/
def Obligations.MessageHasOneEomAndItsHeader : Prop :=
  ∀ (ecb eob : Bool) (run : List Byte), run ≠ [] →
    (message ecb eob run).count .eom = 1 ∧ (message ecb eob run).getLast? = some .eom ∧
      (eob = true → ∃ p, (message ecb eob run).head? = some (.hdr p)) ∧
      (message ecb eob run).countP (fun t => match t with | .hdr _ => true | .byte _ => false | .eom => false) =
        if eob then 1 else 0

/-- R171, R165, R172: a chunk end does nothing; both forms of the end of stream flush a buffered run and set `DEC.ended`, and nothing
else changes. `DEC.ended` is D16, `CEND` D23. -/
def Obligations.EndOfStreamFlushesTheBuffer : Prop :=
  ∀ (i : Instr) (s : State), s.dec.ended = false → s.dec.ovf = false → i = .decEnd ∨ i = .decEos →
    (s.dec.buf = [] → exec i s = .next { s with dec := { s.dec with ended := true } }) ∧
      (s.dec.buf ≠ [] → exec i s = .next { s with dec := { s.dec with buf := [], ended := true, out := { s.dec.out with
        trace := s.dec.out.trace ++ message s.dec.ecb s.dec.eob s.dec.buf } } }) ∧
      exec .decCend s = .next s

/-- R180: with the stream ended or the decoder faulted, no decoder operation and no wire byte is admitted (D14, D16). -/
def Obligations.EndedOrFaultedDecoderAdmitsNothing : Prop :=
  ∀ (i : Instr) (s : State), s.dec.ended = true ∨ s.dec.ovf = true →
    i.wireByte ≠ none ∨ (∃ b, i = .decByte b) ∨ (∃ c, i = .decChunk c) ∨ i = .decCend ∨ i = .decEos ∨ i = .decEnd →
    exec i s = .fault .decEnded ∨ exec i s = .fault .decOverflowed

/-- R161 to R163, R175, R179: a chunk emits one message for each non-empty run it closes, in order, and buffers what follows the last
boundary. The runs are the pieces between the markers of the buffered bytes followed by the chunk. Every byte of the chunk and the
buffer's own run have room (R195). -/
def Obligations.ChunkEmitsItsClosedNonEmptyRuns : Prop :=
  ∀ (c : List Byte) (s : State), s.dec.ended = false → s.dec.ovf = false → (0xC0#8 : Byte) ∉ s.dec.buf →
    (∀ cap, s.params.bufCap = some cap → ∀ r ∈ (s.dec.buf ++ c).splitOn (0xC0#8 : Byte), r.length ≤ cap) →
    exec (.decChunk c) s =
      .next { s with dec := { s.dec with
        buf := ((s.dec.buf ++ c).splitOn (0xC0#8 : Byte)).getLastD []
        out := { s.dec.out with
          trace := s.dec.out.trace ++
            (((s.dec.buf ++ c).splitOn (0xC0#8 : Byte)).dropLast.filter (fun r => r != [])).flatMap
              (message s.dec.ecb s.dec.eob) } } }

/-- R176: a chunk that does not overflow does what its tokens do, and tokens that are all admitted do what the chunk does. The count
of an overflow is the B-level one (log 13). -/
def Obligations.ChunkEqualsItsTokens : Prop :=
  ∀ (c : List Byte) (s t : State), s.dec.ended = false → s.dec.ovf = false →
    (execAll (c.map .decByte ++ [.decCend]) s = .next t ↔ exec (.decChunk c) s = .next t ∧ t.dec.ovf = false)

/-- R177: cutting a chunk in two changes nothing, wherever the cut falls. Where the second chunk overflows, that both ways leave the
same state, the unspecified buffer included, is the model's choice (log 13, log 11, log 10). -/
def Obligations.ChunkSplitInvariance : Prop :=
  ∀ (c d : List Byte) (s t u : State), execAll [.decChunk c, .decChunk d] s = .next u →
    exec (.decChunk c) s = .next t → t.dec.ovf = false → exec (.decChunk (c ++ d)) s = .next u

/-- R193, R95: markers arriving while the buffer is empty, any number of them, one by one or in a chunk, have no effect at all. -/
def Obligations.AdjacentMarkersDoNothing : Prop :=
  ∀ (n : Nat) (s : State), s.dec.ended = false → s.dec.ovf = false → s.dec.buf = [] →
    execAll (List.replicate n .mark) s = .next s ∧ execAll (List.replicate n (.decByte 0xC0#8)) s = .next s ∧
      exec (.decChunk (List.replicate n 0xC0#8)) s = .next s

/-- R174, R175 (d): a frame of a command byte alone, whatever its kind, `EXIT` included, is delivered as one message and leaves the
decoder idle. -/
def Obligations.EveryCommandByteIsDelivered : Prop :=
  ∀ (i : Instr) (b : Byte) (s : State), i.wireByte = some b → i.standsAt .runStart = true → b ≠ 0xC0#8 →
    s.dec.ended = false → s.dec.ovf = false → s.dec.buf = [] → (∀ c, s.params.bufCap = some c → 1 ≤ c) →
    execAll [i, .mark] s =
      .next { s with dec := { s.dec with out := { s.dec.out with
        trace := s.dec.out.trace ++ message s.dec.ecb s.dec.eob [b] } } }

/-- R178: for every port but 12, what a write emits, fed to an idle decoder with room for it, is one message with the payload
restored, in each mode. -/
def Obligations.LoopBackRestoresThePayload : Prop :=
  ∀ (q : List Byte) (s : State), s.enc.st = .ready → RegsAgree s.enc → s.enc.port ≠ 12#4 →
    s.dec.ended = false → s.dec.ovf = false → s.dec.buf = [] →
    (∀ cap, s.params.bufCap = some cap → q.length + q.count 0xC0#8 + q.count 0xDB#8 + 1 ≤ cap) →
    ∃ t u wire, exec (.encWrite q) s = .next t ∧ t.enc.out.trace = s.enc.out.trace ++ wire ∧
      exec (.decChunk wire) t = .next u ∧ u.dec.buf = [] ∧ u.dec.ovf = false ∧
      u.dec.out.trace = s.dec.out.trace ++
        (if s.dec.eob then [DecToken.hdr s.enc.port] else if s.dec.ecb then [DecToken.byte (cmdByte s.enc.port 0#4)] else []) ++
          q.map DecToken.byte ++ [.eom]

/-- R226: for port 12 the decoder takes the first byte of the escaped payload as the command byte, and an empty payload gives no
message at all. -/
def Obligations.PortTwelveLosesTheFirstPayloadByte : Prop :=
  ∀ (q : List Byte) (s : State), s.enc.st = .ready → RegsAgree s.enc → s.enc.port = 12#4 →
    s.dec.ended = false → s.dec.ovf = false → s.dec.buf = [] →
    (∀ cap, s.params.bufCap = some cap → q.length + q.count 0xC0#8 + q.count 0xDB#8 ≤ cap) →
    ∃ t u wire, exec (.encWrite q) s = .next t ∧ t.enc.out.trace = s.enc.out.trace ++ wire ∧
      exec (.decChunk wire) t = .next u ∧ u.dec.buf = [] ∧
      u.dec.out.trace = s.dec.out.trace ++ (if q = [] then [] else message s.dec.ecb s.dec.eob (escape q))

/-! ### Output channels -/

/-- R65, R98, R181: a token offered by a channel is taken by its consumer, which advances the channel and changes nothing else; a
token that is not the one offered is not transferred. That these rows are the consumers' transfers is log 6. -/
def Obligations.OutputTokensAreTakenInOrder : Prop :=
  ∀ (s : State) (b : Byte) (p : Nibble),
    (s.esc.out.trace[s.esc.out.taken]? = some (.byte b) → exec (.outByte .escOut b) s =
      .next { s with esc := { out := { s.esc.out with taken := s.esc.out.taken + 1 } } }) ∧
    (s.esc.out.trace[s.esc.out.taken]? = some .close → exec (.outEnd .escOut) s =
      .next { s with esc := { out := { s.esc.out with taken := s.esc.out.taken + 1 } } }) ∧
    (s.unesc.out.trace[s.unesc.out.taken]? = some (.byte b) → exec (.outByte .unescOut b) s =
      .next { s with unesc := { s.unesc with out := { s.unesc.out with taken := s.unesc.out.taken + 1 } } }) ∧
    (s.unesc.out.trace[s.unesc.out.taken]? = some .close → exec (.outEnd .unescOut) s =
      .next { s with unesc := { s.unesc with out := { s.unesc.out with taken := s.unesc.out.taken + 1 } } }) ∧
    (s.enc.out.trace[s.enc.out.taken]? = some b → exec (.outByte .encOut b) s =
      .next { s with enc := { s.enc with out := { s.enc.out with taken := s.enc.out.taken + 1 } } }) ∧
    (s.dec.out.trace[s.dec.out.taken]? = some (.byte b) → exec (.outByte .decOut b) s =
      .next { s with dec := { s.dec with out := { s.dec.out with taken := s.dec.out.taken + 1 } } }) ∧
    (s.dec.out.trace[s.dec.out.taken]? = some .eom → exec .outEom s =
      .next { s with dec := { s.dec with out := { s.dec.out with taken := s.dec.out.taken + 1 } } }) ∧
    (s.dec.out.trace[s.dec.out.taken]? = some (.hdr p) → exec (.outHdr p) s =
      .next { s with dec := { s.dec with out := { s.dec.out with taken := s.dec.out.taken + 1 } } }) ∧
    (s.esc.out.trace[s.esc.out.taken]? ≠ some (.byte b) → exec (.outByte .escOut b) s = .fault .notOffered) ∧
    (s.esc.out.trace[s.esc.out.taken]? ≠ some .close → exec (.outEnd .escOut) s = .fault .notOffered) ∧
    (s.unesc.out.trace[s.unesc.out.taken]? ≠ some (.byte b) → exec (.outByte .unescOut b) s = .fault .notOffered) ∧
    (s.unesc.out.trace[s.unesc.out.taken]? ≠ some .close → exec (.outEnd .unescOut) s = .fault .notOffered) ∧
    (s.enc.out.trace[s.enc.out.taken]? ≠ some b → exec (.outByte .encOut b) s = .fault .notOffered) ∧
    (s.dec.out.trace[s.dec.out.taken]? ≠ some (.byte b) → exec (.outByte .decOut b) s = .fault .notOffered) ∧
    (s.dec.out.trace[s.dec.out.taken]? ≠ some .eom → exec .outEom s = .fault .notOffered) ∧
    (s.dec.out.trace[s.dec.out.taken]? ≠ some (.hdr p) → exec (.outHdr p) s = .fault .notOffered)

/-- R33, R61: traces are append-only, and so are the consumers' counts, whatever operation other than `RESET` runs. -/
def Obligations.TracesOnlyGrow : Prop :=
  ∀ (i : Instr) (s t : State), exec i s = .next t → ¬ i.isReset →
    (s.esc.out.trace <+: t.esc.out.trace ∧ s.unesc.out.trace <+: t.unesc.out.trace ∧
      s.enc.out.trace <+: t.enc.out.trace ∧ s.dec.out.trace <+: t.dec.out.trace) ∧
    (s.esc.out.taken ≤ t.esc.out.taken ∧ s.unesc.out.taken ≤ t.unesc.out.taken ∧
      s.enc.out.taken ≤ t.enc.out.taken ∧ s.dec.out.taken ≤ t.dec.out.taken)

/-! ### The whole block -/

/-- R62, R200: an operation of one unit leaves the three other units, what is presented and the parameters as they were. -/
def Obligations.OperationsTouchOnlyTheirUnit : Prop :=
  ∀ (i : Instr) (s t : State) (a : Agent), exec i s = .next t → i.agent = some a →
    (a ≠ .esc → t.esc = s.esc) ∧ (a ≠ .unesc → t.unesc = s.unesc) ∧ (a ≠ .enc → t.enc = s.enc) ∧
      (a ≠ .dec → t.dec = s.dec ∧ t.free = s.free) ∧ t.env = s.env ∧ t.params = s.params

/-- R62: the steps of two different units commute: both orders run, to the same state. -/
def Obligations.StepsOfDifferentUnitsCommute : Prop :=
  ∀ (i j : Instr) (a b : Agent) (s t u : State), i.agent = some a → j.agent = some b → a ≠ b →
    exec i s = .next t → exec j t = .next u → ∃ t', exec j s = .next t' ∧ exec i t' = .next u

/-- R201, R37: only reset clears a sticky flag or leaves `ERROR` or `CLOSED`. -/
def Obligations.OnlyResetClearsStickyFlags : Prop :=
  ∀ (i : Instr) (s t : State), exec i s = .next t → ¬ i.isReset →
    (s.enc.err = true → t.enc.err = true) ∧ (s.dec.ovf = true → t.dec.ovf = true) ∧ (s.dec.ended = true → t.dec.ended = true) ∧
      (s.enc.st = .error → t.enc.st = .error) ∧ (s.enc.st = .closed → t.enc.st = .closed)

/-- R220, R39: in any state `RESET` gives every state element the reset value the spec gives it, loads the two straps, and leaves what
is presented and the parameters; the port-derived registers are left open, as free values (D18, D19; log 10, log 18). -/
def Obligations.ResetGivesTheResetValues : Prop :=
  ∀ (ecb eob : Bool) (s : State), ∃ port cmd pre n, exec (.reset ecb eob) s =
    .next { s with
      esc := { out := { trace := [], taken := 0 } }
      unesc := { pend := false, out := { trace := [], taken := 0 } }
      enc := { st := .unconf, port := port, cmd := cmd, pre := pre, err := false, out := { trace := [], taken := 0 } }
      dec := { buf := [], ended := false, ovf := false, ecb := ecb, eob := eob, out := { trace := [], taken := 0 } }
      free := n }

/-- R39: the reset state holds the reset values the spec gives (D18). That nothing is presented is the model's choice (log 2), and so
is the 0 of the two straps, the value of options not supplied (log 18). The other values the model chose are left out: log 8, log 9,
log 10. -/
def Obligations.ResetStateHoldsTheResetValues : Prop :=
  State.reset.dec.buf = [] ∧ State.reset.dec.st = .idle ∧ State.reset.dec.ended = false ∧ State.reset.dec.ovf = false ∧
    State.reset.dec.ecb = false ∧ State.reset.dec.eob = false ∧ State.reset.unesc.pend = false ∧
    State.reset.enc.st = .unconf ∧ State.reset.enc.err = false ∧ State.reset.enc.endm = 0xC0#8 ∧
    State.reset.esc.out.trace = [] ∧ State.reset.unesc.out.trace = [] ∧ State.reset.enc.out.trace = [] ∧
    State.reset.dec.out.trace = [] ∧ State.reset.env = []

/-- R40: the reset state meets the invariants. -/
def Obligations.ResetStateMeetsTheInvariants : Prop := Inv State.reset

/-- R40 (I1, I3 to I7), R81, R179, R181: from every state that meets them, a step of the machine keeps the invariants: the buffer
holds no marker and fits, `ENC.err` marks `ERROR`, the port-derived registers agree with the port, the encoder's output is a word of
the wire grammar, the decoder's output is a sequence of whole messages, no consumer has taken more than was produced. -/
def Obligations.StepKeepsTheInvariants : Prop :=
  ∀ s t : State, Inv s → step s = .next t → Inv t

/-- R40 (I8), R180: once the stream has ended or the buffer has overflowed, `DEC.out` never grows and the decoder keeps its buffer,
whatever operation other than `RESET` runs. That an overflowed decoder keeps its buffer, which the spec leaves unspecified from then
on (R195, U2), is the model's choice: the free value is drawn once, at the overflow (log 11). -/
def Obligations.EndedOrFaultedDecoderNeverEmits : Prop :=
  ∀ (i : Instr) (s t : State), exec i s = .next t → ¬ i.isReset → s.dec.ended = true ∨ s.dec.ovf = true →
    t.dec.out.trace = s.dec.out.trace ∧ t.dec.buf = s.dec.buf

/-- R195 with R176: a chunk in which some run grows past the capacity takes the overflow: it completes, `DEC.ovf` is set, and the
messages of the runs closed before the byte that does not fit stay emitted (D14; log 13). -/
def Obligations.OverflowingChunkKeepsEarlierMessages : Prop :=
  ∀ (c d : List Byte) (b : Byte) (s t : State) (cap : Nat), s.params.bufCap = some cap → b ≠ 0xC0#8 →
    exec (.decChunk c) s = .next t → t.dec.ovf = false → cap ≤ t.dec.buf.length →
    ∃ u, exec (.decChunk (c ++ b :: d)) s = .next u ∧ u.dec.ovf = true ∧ u.dec.out = t.dec.out

/-- R236: a run in which a token waits unadmitted is not over, nor a decoder run that has overflowed, and while no `RESET` is
presented next a step leaves it so. That a waiting token is a form in the list of what is presented is log 1. -/
def Obligations.WaitingTokenOrOverflowKeepsTheRunOpen : Prop :=
  ∀ s t : State, step s = .next t → (∀ x, s.env.head? = some x → isRst x = false) →
    (tokenWaits encInput s = true → ¬ EncRunOver s ∧ tokenWaits encInput t = true ∧ ¬ EncRunOver t) ∧
      (tokenWaits decInput s = true → ¬ DecRunOver s ∧ tokenWaits decInput t = true ∧ ¬ DecRunOver t) ∧
      (s.dec.ovf = true → ¬ DecRunOver s ∧ t.dec.ovf = true ∧ ¬ DecRunOver t)

/-- R236: an encoder run is over when the encoder is shut down or failed, all it emitted is taken and no token waits, a decoder run
when its stream has ended, and so on; once over, a run stays over while no `RESET` is presented next (R141, R180; log 1). -/
def Obligations.RunThatIsOverStaysOver : Prop :=
  ∀ s t : State, step s = .next t → (∀ x, s.env.head? = some x → isRst x = false) →
    (EncRunOver s → EncRunOver t ∧ t.enc = s.enc) ∧ (DecRunOver s → DecRunOver t ∧ t.dec = s.dec)
end

