-- ==== Sys2Proof/Laws/State.lean ====
section
/-! SUPPORT. One lemma per field per update of the state, so that no later proof unfolds a record update. -/

namespace Sys2Proof.Machine

variable {α : Type} (o : Out α) (s : State)

@[simp] theorem Out.empty_trace : (Out.empty : Out α).trace = [] := rfl
@[simp] theorem Out.empty_taken : (Out.empty : Out α).taken = 0 := rfl
@[simp] theorem Out.emit_trace (ts : List α) : (o.emit ts).trace = o.trace ++ ts := rfl
@[simp] theorem Out.emit_taken (ts : List α) : (o.emit ts).taken = o.taken := rfl
@[simp] theorem Out.advance_trace : o.advance.trace = o.trace := rfl
@[simp] theorem Out.advance_taken : o.advance.taken = o.taken + 1 := rfl

/-- Emitting nothing changes nothing. -/
@[simp] theorem Out.emit_nil : o.emit [] = o := by simp [Out.emit]

/-- Emissions of one channel run together. -/
theorem Out.emit_emit (ts us : List α) : (o.emit ts).emit us = o.emit (ts ++ us) := by
  simp [Out.emit, List.append_assoc]

@[simp] theorem State.emitEsc_params (ts : List EscToken) : (s.emitEsc ts).params = s.params := rfl
@[simp] theorem State.emitEsc_unesc (ts : List EscToken) : (s.emitEsc ts).unesc = s.unesc := rfl
@[simp] theorem State.emitEsc_enc (ts : List EscToken) : (s.emitEsc ts).enc = s.enc := rfl
@[simp] theorem State.emitEsc_dec (ts : List EscToken) : (s.emitEsc ts).dec = s.dec := rfl
@[simp] theorem State.emitEsc_env (ts : List EscToken) : (s.emitEsc ts).env = s.env := rfl
@[simp] theorem State.emitEsc_free (ts : List EscToken) : (s.emitEsc ts).free = s.free := rfl
@[simp] theorem State.emitEsc_esc_out (ts : List EscToken) : (s.emitEsc ts).esc.out = s.esc.out.emit ts := rfl

@[simp] theorem State.emitUnesc_params (ts : List EscToken) : (s.emitUnesc ts).params = s.params := rfl
@[simp] theorem State.emitUnesc_esc (ts : List EscToken) : (s.emitUnesc ts).esc = s.esc := rfl
@[simp] theorem State.emitUnesc_enc (ts : List EscToken) : (s.emitUnesc ts).enc = s.enc := rfl
@[simp] theorem State.emitUnesc_dec (ts : List EscToken) : (s.emitUnesc ts).dec = s.dec := rfl
@[simp] theorem State.emitUnesc_env (ts : List EscToken) : (s.emitUnesc ts).env = s.env := rfl
@[simp] theorem State.emitUnesc_free (ts : List EscToken) : (s.emitUnesc ts).free = s.free := rfl
@[simp] theorem State.emitUnesc_unesc_pend (ts : List EscToken) : (s.emitUnesc ts).unesc.pend = s.unesc.pend := rfl
@[simp] theorem State.emitUnesc_unesc_out (ts : List EscToken) : (s.emitUnesc ts).unesc.out = s.unesc.out.emit ts := rfl

@[simp] theorem State.emitEnc_params (bs : List Byte) : (s.emitEnc bs).params = s.params := rfl
@[simp] theorem State.emitEnc_esc (bs : List Byte) : (s.emitEnc bs).esc = s.esc := rfl
@[simp] theorem State.emitEnc_unesc (bs : List Byte) : (s.emitEnc bs).unesc = s.unesc := rfl
@[simp] theorem State.emitEnc_dec (bs : List Byte) : (s.emitEnc bs).dec = s.dec := rfl
@[simp] theorem State.emitEnc_env (bs : List Byte) : (s.emitEnc bs).env = s.env := rfl
@[simp] theorem State.emitEnc_free (bs : List Byte) : (s.emitEnc bs).free = s.free := rfl
@[simp] theorem State.emitEnc_enc_st (bs : List Byte) : (s.emitEnc bs).enc.st = s.enc.st := rfl
@[simp] theorem State.emitEnc_enc_port (bs : List Byte) : (s.emitEnc bs).enc.port = s.enc.port := rfl
@[simp] theorem State.emitEnc_enc_cmd (bs : List Byte) : (s.emitEnc bs).enc.cmd = s.enc.cmd := rfl
@[simp] theorem State.emitEnc_enc_pre (bs : List Byte) : (s.emitEnc bs).enc.pre = s.enc.pre := rfl
@[simp] theorem State.emitEnc_enc_err (bs : List Byte) : (s.emitEnc bs).enc.err = s.enc.err := rfl
@[simp] theorem State.emitEnc_enc_out (bs : List Byte) : (s.emitEnc bs).enc.out = s.enc.out.emit bs := rfl

@[simp] theorem State.emitDec_params (ts : List DecToken) : (s.emitDec ts).params = s.params := rfl
@[simp] theorem State.emitDec_esc (ts : List DecToken) : (s.emitDec ts).esc = s.esc := rfl
@[simp] theorem State.emitDec_unesc (ts : List DecToken) : (s.emitDec ts).unesc = s.unesc := rfl
@[simp] theorem State.emitDec_enc (ts : List DecToken) : (s.emitDec ts).enc = s.enc := rfl
@[simp] theorem State.emitDec_env (ts : List DecToken) : (s.emitDec ts).env = s.env := rfl
@[simp] theorem State.emitDec_free (ts : List DecToken) : (s.emitDec ts).free = s.free := rfl
@[simp] theorem State.emitDec_dec_buf (ts : List DecToken) : (s.emitDec ts).dec.buf = s.dec.buf := rfl
@[simp] theorem State.emitDec_dec_ended (ts : List DecToken) : (s.emitDec ts).dec.ended = s.dec.ended := rfl
@[simp] theorem State.emitDec_dec_ovf (ts : List DecToken) : (s.emitDec ts).dec.ovf = s.dec.ovf := rfl
@[simp] theorem State.emitDec_dec_ecb (ts : List DecToken) : (s.emitDec ts).dec.ecb = s.dec.ecb := rfl
@[simp] theorem State.emitDec_dec_eob (ts : List DecToken) : (s.emitDec ts).dec.eob = s.dec.eob := rfl
@[simp] theorem State.emitDec_dec_out (ts : List DecToken) : (s.emitDec ts).dec.out = s.dec.out.emit ts := rfl

@[simp] theorem State.setPend_params (p : Bool) : (s.setPend p).params = s.params := rfl
@[simp] theorem State.setPend_esc (p : Bool) : (s.setPend p).esc = s.esc := rfl
@[simp] theorem State.setPend_enc (p : Bool) : (s.setPend p).enc = s.enc := rfl
@[simp] theorem State.setPend_dec (p : Bool) : (s.setPend p).dec = s.dec := rfl
@[simp] theorem State.setPend_env (p : Bool) : (s.setPend p).env = s.env := rfl
@[simp] theorem State.setPend_free (p : Bool) : (s.setPend p).free = s.free := rfl
@[simp] theorem State.setPend_unesc_pend (p : Bool) : (s.setPend p).unesc.pend = p := rfl
@[simp] theorem State.setPend_unesc_out (p : Bool) : (s.setPend p).unesc.out = s.unesc.out := rfl

@[simp] theorem State.setEncSt_params (st : EncState) : (s.setEncSt st).params = s.params := rfl
@[simp] theorem State.setEncSt_esc (st : EncState) : (s.setEncSt st).esc = s.esc := rfl
@[simp] theorem State.setEncSt_unesc (st : EncState) : (s.setEncSt st).unesc = s.unesc := rfl
@[simp] theorem State.setEncSt_dec (st : EncState) : (s.setEncSt st).dec = s.dec := rfl
@[simp] theorem State.setEncSt_env (st : EncState) : (s.setEncSt st).env = s.env := rfl
@[simp] theorem State.setEncSt_free (st : EncState) : (s.setEncSt st).free = s.free := rfl
@[simp] theorem State.setEncSt_enc_st (st : EncState) : (s.setEncSt st).enc.st = st := rfl
@[simp] theorem State.setEncSt_enc_port (st : EncState) : (s.setEncSt st).enc.port = s.enc.port := rfl
@[simp] theorem State.setEncSt_enc_cmd (st : EncState) : (s.setEncSt st).enc.cmd = s.enc.cmd := rfl
@[simp] theorem State.setEncSt_enc_pre (st : EncState) : (s.setEncSt st).enc.pre = s.enc.pre := rfl
@[simp] theorem State.setEncSt_enc_err (st : EncState) : (s.setEncSt st).enc.err = s.enc.err := rfl
@[simp] theorem State.setEncSt_enc_out (st : EncState) : (s.setEncSt st).enc.out = s.enc.out := rfl

@[simp] theorem State.setBuf_params (buf : List Byte) : (s.setBuf buf).params = s.params := rfl
@[simp] theorem State.setBuf_esc (buf : List Byte) : (s.setBuf buf).esc = s.esc := rfl
@[simp] theorem State.setBuf_unesc (buf : List Byte) : (s.setBuf buf).unesc = s.unesc := rfl
@[simp] theorem State.setBuf_enc (buf : List Byte) : (s.setBuf buf).enc = s.enc := rfl
@[simp] theorem State.setBuf_env (buf : List Byte) : (s.setBuf buf).env = s.env := rfl
@[simp] theorem State.setBuf_free (buf : List Byte) : (s.setBuf buf).free = s.free := rfl
@[simp] theorem State.setBuf_dec_buf (buf : List Byte) : (s.setBuf buf).dec.buf = buf := rfl
@[simp] theorem State.setBuf_dec_ended (buf : List Byte) : (s.setBuf buf).dec.ended = s.dec.ended := rfl
@[simp] theorem State.setBuf_dec_ovf (buf : List Byte) : (s.setBuf buf).dec.ovf = s.dec.ovf := rfl
@[simp] theorem State.setBuf_dec_ecb (buf : List Byte) : (s.setBuf buf).dec.ecb = s.dec.ecb := rfl
@[simp] theorem State.setBuf_dec_eob (buf : List Byte) : (s.setBuf buf).dec.eob = s.dec.eob := rfl
@[simp] theorem State.setBuf_dec_out (buf : List Byte) : (s.setBuf buf).dec.out = s.dec.out := rfl

@[simp] theorem State.bufAppend_params (b : Byte) : (s.bufAppend b).params = s.params := rfl
@[simp] theorem State.bufAppend_esc (b : Byte) : (s.bufAppend b).esc = s.esc := rfl
@[simp] theorem State.bufAppend_unesc (b : Byte) : (s.bufAppend b).unesc = s.unesc := rfl
@[simp] theorem State.bufAppend_enc (b : Byte) : (s.bufAppend b).enc = s.enc := rfl
@[simp] theorem State.bufAppend_env (b : Byte) : (s.bufAppend b).env = s.env := rfl
@[simp] theorem State.bufAppend_free (b : Byte) : (s.bufAppend b).free = s.free := rfl
@[simp] theorem State.bufAppend_dec_buf (b : Byte) : (s.bufAppend b).dec.buf = s.dec.buf ++ [b] := rfl
@[simp] theorem State.bufAppend_dec_ended (b : Byte) : (s.bufAppend b).dec.ended = s.dec.ended := rfl
@[simp] theorem State.bufAppend_dec_ovf (b : Byte) : (s.bufAppend b).dec.ovf = s.dec.ovf := rfl
@[simp] theorem State.bufAppend_dec_ecb (b : Byte) : (s.bufAppend b).dec.ecb = s.dec.ecb := rfl
@[simp] theorem State.bufAppend_dec_eob (b : Byte) : (s.bufAppend b).dec.eob = s.dec.eob := rfl
@[simp] theorem State.bufAppend_dec_out (b : Byte) : (s.bufAppend b).dec.out = s.dec.out := rfl

@[simp] theorem State.setEnded_params : (s.setEnded).params = s.params := rfl
@[simp] theorem State.setEnded_esc : (s.setEnded).esc = s.esc := rfl
@[simp] theorem State.setEnded_unesc : (s.setEnded).unesc = s.unesc := rfl
@[simp] theorem State.setEnded_enc : (s.setEnded).enc = s.enc := rfl
@[simp] theorem State.setEnded_env : (s.setEnded).env = s.env := rfl
@[simp] theorem State.setEnded_free : (s.setEnded).free = s.free := rfl
@[simp] theorem State.setEnded_dec_buf : (s.setEnded).dec.buf = s.dec.buf := rfl
@[simp] theorem State.setEnded_dec_ended : (s.setEnded).dec.ended = true := rfl
@[simp] theorem State.setEnded_dec_ovf : (s.setEnded).dec.ovf = s.dec.ovf := rfl
@[simp] theorem State.setEnded_dec_ecb : (s.setEnded).dec.ecb = s.dec.ecb := rfl
@[simp] theorem State.setEnded_dec_eob : (s.setEnded).dec.eob = s.dec.eob := rfl
@[simp] theorem State.setEnded_dec_out : (s.setEnded).dec.out = s.dec.out := rfl

@[simp] theorem State.raiseConfigError_params : (s.raiseConfigError).params = s.params := rfl
@[simp] theorem State.raiseConfigError_esc : (s.raiseConfigError).esc = s.esc := rfl
@[simp] theorem State.raiseConfigError_unesc : (s.raiseConfigError).unesc = s.unesc := rfl
@[simp] theorem State.raiseConfigError_dec : (s.raiseConfigError).dec = s.dec := rfl
@[simp] theorem State.raiseConfigError_env : (s.raiseConfigError).env = s.env := rfl
@[simp] theorem State.raiseConfigError_free : (s.raiseConfigError).free = s.free := rfl
@[simp] theorem State.raiseConfigError_enc_st : (s.raiseConfigError).enc.st = .error := rfl
@[simp] theorem State.raiseConfigError_enc_port : (s.raiseConfigError).enc.port = s.enc.port := rfl
@[simp] theorem State.raiseConfigError_enc_cmd : (s.raiseConfigError).enc.cmd = s.enc.cmd := rfl
@[simp] theorem State.raiseConfigError_enc_pre : (s.raiseConfigError).enc.pre = s.enc.pre := rfl
@[simp] theorem State.raiseConfigError_enc_err : (s.raiseConfigError).enc.err = true := rfl
@[simp] theorem State.raiseConfigError_enc_out : (s.raiseConfigError).enc.out = s.enc.out := rfl

@[simp] theorem State.raiseBufOverflow_params : (s.raiseBufOverflow).params = s.params := rfl
@[simp] theorem State.raiseBufOverflow_esc : (s.raiseBufOverflow).esc = s.esc := rfl
@[simp] theorem State.raiseBufOverflow_unesc : (s.raiseBufOverflow).unesc = s.unesc := rfl
@[simp] theorem State.raiseBufOverflow_enc : (s.raiseBufOverflow).enc = s.enc := rfl
@[simp] theorem State.raiseBufOverflow_env : (s.raiseBufOverflow).env = s.env := rfl
@[simp] theorem State.raiseBufOverflow_dec_buf : (s.raiseBufOverflow).dec.buf = overflowedBuf s.params.bufCap s.free := rfl
@[simp] theorem State.raiseBufOverflow_dec_ended : (s.raiseBufOverflow).dec.ended = s.dec.ended := rfl
@[simp] theorem State.raiseBufOverflow_dec_ovf : (s.raiseBufOverflow).dec.ovf = true := rfl
@[simp] theorem State.raiseBufOverflow_dec_ecb : (s.raiseBufOverflow).dec.ecb = s.dec.ecb := rfl
@[simp] theorem State.raiseBufOverflow_dec_eob : (s.raiseBufOverflow).dec.eob = s.dec.eob := rfl
@[simp] theorem State.raiseBufOverflow_dec_out : (s.raiseBufOverflow).dec.out = s.dec.out := rfl
@[simp] theorem State.raiseBufOverflow_free : (s.raiseBufOverflow).free = s.free + 1 := rfl

@[simp] theorem State.construct_params (port : Nibble) (cfg : EncCfg) : (s.construct port cfg).params = s.params := rfl
@[simp] theorem State.construct_esc (port : Nibble) (cfg : EncCfg) : (s.construct port cfg).esc = s.esc := rfl
@[simp] theorem State.construct_unesc (port : Nibble) (cfg : EncCfg) : (s.construct port cfg).unesc = s.unesc := rfl
@[simp] theorem State.construct_dec (port : Nibble) (cfg : EncCfg) : (s.construct port cfg).dec = s.dec := rfl
@[simp] theorem State.construct_env (port : Nibble) (cfg : EncCfg) : (s.construct port cfg).env = s.env := rfl
@[simp] theorem State.construct_free (port : Nibble) (cfg : EncCfg) : (s.construct port cfg).free = s.free := rfl
@[simp] theorem State.construct_enc_st (port : Nibble) (cfg : EncCfg) : (s.construct port cfg).enc.st = .ready := rfl
@[simp] theorem State.construct_enc_port (port : Nibble) (cfg : EncCfg) : (s.construct port cfg).enc.port = port := rfl
@[simp] theorem State.construct_enc_cmd (port : Nibble) (cfg : EncCfg) : (s.construct port cfg).enc.cmd = cmdRegsOf port := rfl
@[simp] theorem State.construct_enc_pre (port : Nibble) (cfg : EncCfg) : (s.construct port cfg).enc.pre = frameStartOf port := rfl
@[simp] theorem State.construct_enc_err (port : Nibble) (cfg : EncCfg) : (s.construct port cfg).enc.err = s.enc.err := rfl
@[simp] theorem State.construct_enc_out (port : Nibble) (cfg : EncCfg) : (s.construct port cfg).enc.out = s.enc.out.emit (initFrames s.params.initOrder (cmdRegsOf port) cfg) := rfl

@[simp] theorem State.resetBlock_params (ecb eob : Bool) : (s.resetBlock ecb eob).params = s.params := rfl
@[simp] theorem State.resetBlock_env (ecb eob : Bool) : (s.resetBlock ecb eob).env = s.env := rfl
@[simp] theorem State.resetBlock_esc_out (ecb eob : Bool) : (s.resetBlock ecb eob).esc.out = Out.empty := rfl
@[simp] theorem State.resetBlock_unesc_pend (ecb eob : Bool) : (s.resetBlock ecb eob).unesc.pend = false := rfl
@[simp] theorem State.resetBlock_unesc_out (ecb eob : Bool) : (s.resetBlock ecb eob).unesc.out = Out.empty := rfl
@[simp] theorem State.resetBlock_enc (ecb eob : Bool) : (s.resetBlock ecb eob).enc = resetEnc s.free := rfl
@[simp] theorem State.resetBlock_dec_buf (ecb eob : Bool) : (s.resetBlock ecb eob).dec.buf = [] := rfl
@[simp] theorem State.resetBlock_dec_ended (ecb eob : Bool) : (s.resetBlock ecb eob).dec.ended = false := rfl
@[simp] theorem State.resetBlock_dec_ovf (ecb eob : Bool) : (s.resetBlock ecb eob).dec.ovf = false := rfl
@[simp] theorem State.resetBlock_dec_ecb (ecb eob : Bool) : (s.resetBlock ecb eob).dec.ecb = ecb := rfl
@[simp] theorem State.resetBlock_dec_eob (ecb eob : Bool) : (s.resetBlock ecb eob).dec.eob = eob := rfl
@[simp] theorem State.resetBlock_dec_out (ecb eob : Bool) : (s.resetBlock ecb eob).dec.out = Out.empty := rfl
@[simp] theorem State.resetBlock_free (ecb eob : Bool) : (s.resetBlock ecb eob).free = s.free + 1 := rfl

@[simp] theorem resetEnc_st (draw : Nat) : (resetEnc draw).st = .unconf := rfl
@[simp] theorem resetEnc_err (draw : Nat) : (resetEnc draw).err = false := rfl
@[simp] theorem resetEnc_out (draw : Nat) : (resetEnc draw).out = Out.empty := rfl

/-- Consuming a presented form changes no unit: the units of a state with another `env` are the state's own. -/
@[simp] theorem State.withEnv_dec (env : List Presentation) : ({ s with env := env } : State).dec = s.dec := rfl
@[simp] theorem State.withEnv_enc (env : List Presentation) : ({ s with env := env } : State).enc = s.enc := rfl
@[simp] theorem State.withEnv_esc (env : List Presentation) : ({ s with env := env } : State).esc = s.esc := rfl
@[simp] theorem State.withEnv_unesc (env : List Presentation) : ({ s with env := env } : State).unesc = s.unesc := rfl

end Sys2Proof.Machine
end

