-- ==== Sys2Proof/Laws/Ops.lean ====
section
/-! SUPPORT. For each shared operation, once, everything it can do: the inversion lemma the proofs cite instead of unfolding it. -/

namespace Sys2Proof.Machine

/-! ### Admission of the decoder -/

theorem Dec.notAdmitting_eq_none (d : Dec) : d.notAdmitting = none ↔ d.ended = false ∧ d.ovf = false := by
  cases h : d.ended <;> cases h' : d.ovf <;> simp [Dec.notAdmitting, h, h']

/-- A decoder operation answers a next state exactly when the decoder admits it, and then the state it computed. -/
theorem whenDecAdmits_next (s t u : State) :
    whenDecAdmits s t = .next u ↔ s.dec.ended = false ∧ s.dec.ovf = false ∧ u = t := by
  cases h : s.dec.ended <;> cases h' : s.dec.ovf <;> simp [whenDecAdmits, Dec.notAdmitting, h, h', eq_comm]

/-- A decoder that admits answers what the operation computed. -/
theorem whenDecAdmits_of_admitting {s : State} (t : State) (he : s.dec.ended = false) (ho : s.dec.ovf = false) :
    whenDecAdmits s t = .next t := (whenDecAdmits_next s t t).2 ⟨he, ho, rfl⟩

/-- A decoder that does not admit answers one of its two faults. -/
theorem whenDecAdmits_fault {s : State} (t : State) (h : s.dec.ended = true ∨ s.dec.ovf = true) :
    whenDecAdmits s t = .fault .decEnded ∨ whenDecAdmits s t = .fault .decOverflowed := by
  cases he : s.dec.ended <;> cases ho : s.dec.ovf <;> simp_all [whenDecAdmits, Dec.notAdmitting]

/-! ### The decoder's intake -/

/-- An empty run is closed with no effect; a buffered run is emitted as one message and the buffer is empty after it. -/
theorem State.closeRun_cases (s : State) :
    (s.dec.buf = [] ∧ s.closeRun = s) ∨
      (s.dec.buf ≠ [] ∧ s.closeRun = (s.emitDec (message s.dec.ecb s.dec.eob s.dec.buf)).setBuf []) := by
  by_cases h : s.dec.buf = []
  · exact .inl ⟨h, by simp [State.closeRun, h]⟩
  · exact .inr ⟨h, by simp [State.closeRun, h]⟩

/-- What taking one wire byte can do: close the run, append, or overflow. -/
theorem State.takeByte_cases (s : State) (b : Byte) :
    (b = Wire.MARK ∧ s.takeByte b = s.closeRun) ∨
      (b ≠ Wire.MARK ∧ fits s.params.bufCap s.dec.buf.length = true ∧ s.takeByte b = s.bufAppend b) ∨
      (b ≠ Wire.MARK ∧ fits s.params.bufCap s.dec.buf.length = false ∧ s.takeByte b = s.raiseBufOverflow) := by
  by_cases hb : b = Wire.MARK
  · exact .inl ⟨hb, by simp [State.takeByte, hb]⟩
  · cases hf : fits s.params.bufCap s.dec.buf.length
    · exact .inr (.inr ⟨hb, rfl, by simp [State.takeByte, hb, hf]⟩)
    · exact .inr (.inl ⟨hb, rfl, by simp [State.takeByte, hb, hf]⟩)

/-- The intake of one wire byte, when it answers a next state. -/
theorem decIntake_next {b : Byte} {s t : State} :
    decIntake b s = .next t ↔ s.dec.ended = false ∧ s.dec.ovf = false ∧ t = s.takeByte b := whenDecAdmits_next _ _ _

/-- The end of the stream, when it answers a next state. -/
theorem decFinish_next {s t : State} :
    decFinish s = .next t ↔ s.dec.ended = false ∧ s.dec.ovf = false ∧ t = s.closeRun.setEnded := whenDecAdmits_next _ _ _

/-- Taking a chunk: KT's three steps on the fitting part, and then the overflow if a byte does not fit. -/
theorem State.takeChunk_cases (s : State) (c : List Byte) :
    let fitting := chunkFitting s.params.bufCap s.dec.buf.length c
    let closed := chunkRuns s.dec.buf fitting.1
    let t := (s.emitDec (closed.1.flatMap (message s.dec.ecb s.dec.eob))).setBuf closed.2
    (fitting.2 = false ∧ s.takeChunk c = t) ∨ (fitting.2 = true ∧ s.takeChunk c = t.raiseBufOverflow) := by
  simp only [State.takeChunk]
  cases (chunkFitting s.params.bufCap s.dec.buf.length c).2 <;> simp

/-! ### The encoder -/

/-- The end of the payload stream, when it answers a next state. -/
theorem encFinish_next {s t : State} :
    encFinish s = .next t ↔ s.enc.st = .ready ∧ t = (s.emitEnc exitFrame).setEncSt .closed := by
  cases h : s.enc.st <;> simp [encFinish, h, eq_comm]

/-- A payload write, when it answers a next state. -/
theorem execEncWrite_next {p : List Byte} {s t : State} :
    execEncWrite p s = .next t ↔ s.enc.st = .ready ∧ t = s.emitEnc (s.enc.dataFrame p) := by
  cases h : s.enc.st <;> simp [execEncWrite, h, eq_comm]

/-- A payload byte, when it answers a next state. -/
theorem execEncByte_next {b : Byte} {s t : State} :
    execEncByte b s = .next t ↔
      (s.enc.st = .ready ∧ t = (s.emitEnc (s.enc.pre.bytes ++ esc1 b)).setEncSt .inWrite) ∨
        (s.enc.st = .inWrite ∧ t = s.emitEnc (esc1 b)) := by
  cases h : s.enc.st <;> simp [execEncByte, h, eq_comm]

/-- The end of a write, when it answers a next state. -/
theorem execEncEow_next {s t : State} :
    execEncEow s = .next t ↔
      (s.enc.st = .ready ∧ t = s.emitEnc (s.enc.pre.bytes ++ [s.enc.endm])) ∨
        (s.enc.st = .inWrite ∧ t = (s.emitEnc [s.enc.endm]).setEncSt .ready) := by
  cases h : s.enc.st <;> simp [execEncEow, h, eq_comm]

/-- A construction, when it answers a next state: it failed on the port, or it was admitted and succeeded. -/
theorem execEncOpen_next {cfg : EncCfg} {s t : State} :
    execEncOpen cfg s = .next t ↔
      s.enc.st = .unconf ∧
        ((validPort cfg.port = none ∧ t = s.raiseConfigError) ∨
          ∃ port, validPort cfg.port = some port ∧ timesFit cfg = true ∧ hwFits s.params.hwMax cfg = true ∧
            t = s.construct port cfg) := by
  cases h : s.enc.st <;> simp [execEncOpen, h]
  cases hp : validPort cfg.port with
  | none => simp; exact eq_comm
  | some port =>
    cases ht : timesFit cfg <;> cases hw : hwFits s.params.hwMax cfg <;> simp
    exact eq_comm

/-! ### The escapers -/

/-- A T-level unescape call, when it answers a next state. -/
theorem execUnescape_next {w : List Byte} {s t : State} :
    execUnescape w s = .next t ↔
      s.unesc.pend = false ∧ t = (s.emitUnesc (escBytes (unescape w) ++ [.close])).setPend false := by
  cases h : s.unesc.pend <;> simp [execUnescape, h, eq_comm]

/-! ### The consumers -/

/-- A token is taken exactly when it is the one offered. -/
theorem Out.take?_eq_some {α : Type} [DecidableEq α] {o p : Out α} {t : α} :
    o.take? t = some p ↔ o.offered = some t ∧ p = o.advance := by
  by_cases h : o.offered = some t <;> simp [Out.take?, h, eq_comm]

/-- A token offered lies in the trace beyond what was taken. -/
theorem Out.taken_lt_of_offered {α : Type} {o : Out α} {t : α} (h : o.offered = some t) : o.taken < o.trace.length := by
  by_contra hn
  simp [Out.offered, List.getElem?_eq_none (Nat.le_of_not_lt hn)] at h

theorem takeEsc_next {x : EscToken} {s t : State} :
    takeEsc x s = .next t ↔ s.esc.out.offered = some x ∧ t = { s with esc := { s.esc with out := s.esc.out.advance } } := by
  by_cases h : s.esc.out.offered = some x <;> simp [takeEsc, Out.take?, h, eq_comm]

theorem takeUnesc_next {x : EscToken} {s t : State} :
    takeUnesc x s = .next t ↔
      s.unesc.out.offered = some x ∧ t = { s with unesc := { s.unesc with out := s.unesc.out.advance } } := by
  by_cases h : s.unesc.out.offered = some x <;> simp [takeUnesc, Out.take?, h, eq_comm]

theorem takeEnc_next {x : Byte} {s t : State} :
    takeEnc x s = .next t ↔ s.enc.out.offered = some x ∧ t = { s with enc := { s.enc with out := s.enc.out.advance } } := by
  by_cases h : s.enc.out.offered = some x <;> simp [takeEnc, Out.take?, h, eq_comm]

theorem takeDec_next {x : DecToken} {s t : State} :
    takeDec x s = .next t ↔ s.dec.out.offered = some x ∧ t = { s with dec := { s.dec with out := s.dec.out.advance } } := by
  by_cases h : s.dec.out.offered = some x <;> simp [takeDec, Out.take?, h, eq_comm]

/-! ### The step -/

/-- What a step can be: idle, a rejection, or the operation decoded from what is presented first. -/
theorem step_cases (s : State) :
    (s.env = [] ∧ step s = .next s) ∨
      ∃ x rest, s.env = x :: rest ∧
        ((∃ e, decode s.dec.position x = .error e ∧ step s = rejected e) ∨
          ∃ i, decode s.dec.position x = .ok i ∧ step s = exec i { s with env := rest }) := by
  cases h : s.env with
  | nil => exact .inl ⟨rfl, by simp [step, fetch, h, idle]⟩
  | cons x rest =>
    refine .inr ⟨x, rest, rfl, ?_⟩
    cases hd : decode s.dec.position x with
    | error e => exact .inl ⟨e, rfl, by simp [step, fetch, h, hd]⟩
    | ok i => exact .inr ⟨i, rfl, by simp [step, fetch, h, hd]⟩

/-- A rejection is no next state. -/
theorem rejected_ne_next (e : DecodeError) (t : State) : rejected e ≠ .next t := by cases e <;> simp [rejected]

end Sys2Proof.Machine
end

