-- ==== Sys2Proof/Laws/Buffer.lean ====
section
/-! SUPPORT. The buffer primitives keep the buffer's two limits (10_state.md R40 I1, I3): no `MARK`, at most `BUF_CAP` bytes. -/

namespace Sys2Proof.Machine

/-- A content in the buffer of a block: no `MARK` and within the capacity. -/
def BufOk (bufCap : Option Nat) (buf : List Byte) : Prop :=
  Wire.MARK ∉ buf ∧ ∀ c, bufCap = some c → buf.length ≤ c

theorem bufOk_nil (bufCap : Option Nat) : BufOk bufCap [] := ⟨by simp, by simp⟩

/-- `BufAppend` under its precondition (R51). -/
theorem bufOk_append {bufCap : Option Nat} {buf : List Byte} {b : Byte} (h : BufOk bufCap buf) (hb : b ≠ Wire.MARK)
    (hf : fits bufCap buf.length = true) : BufOk bufCap (buf ++ [b]) := by
  refine ⟨by simp [h.1, Ne.symm hb], fun c hc => ?_⟩
  subst hc
  simpa [fits] using hf

/-- The free content after an overflow stays within the limits, whatever it is (R195). -/
theorem bufOk_overflowedBuf (bufCap : Option Nat) (draw : Nat) : BufOk bufCap (overflowedBuf bufCap draw) := by
  have hm : Wire.MARK ∉ (Config.freeBuf draw).filter (· != Wire.MARK) := by simp
  cases bufCap with
  | none => exact ⟨hm, by simp⟩
  | some c =>
    refine ⟨fun hmem => hm (List.mem_of_mem_take hmem), fun c' hc => ?_⟩
    cases hc
    simp [overflowedBuf, List.length_take]

/-- One wire byte keeps the limits (R170). -/
theorem bufOk_takeByte {s : State} (b : Byte) (h : BufOk s.params.bufCap s.dec.buf) :
    BufOk s.params.bufCap (s.takeByte b).dec.buf := by
  rcases s.takeByte_cases b with ⟨-, e⟩ | ⟨hb, hf, e⟩ | ⟨-, -, e⟩
  · rw [e]
    rcases s.closeRun_cases with ⟨-, e'⟩ | ⟨-, e'⟩
    · rwa [e']
    · rw [e']; exact bufOk_nil _
  · rw [e]; exact bufOk_append h hb hf
  · rw [e]; exact bufOk_overflowedBuf _ _

end Sys2Proof.Machine
end

