-- ==== Sys2Proof/Laws/PerInstr.lean ====
section
/-! SUPPORT. Statements made of every operation as syntax, one lemma per constructor. -/

namespace Sys2Proof.Laws.Channel

/-- The encoded form of an operation is presented on a channel of the unit the operation belongs to (30_encoding.md R101,
20_memory.md R50). -/
def Statement (i : Instr) : Prop := (encode i).agent = i.agent

theorem mark : Statement (.mark) := rfl
theorem esc : Statement (.esc) := rfl
theorem escMark : Statement (.escMark) := rfl
theorem escEsc : Statement (.escEsc) := rfl
theorem escBad (b : Byte) : Statement (.escBad b) := rfl
theorem lit (b : Byte) : Statement (.lit b) := rfl
theorem cmd (port : Nibble) (kind : Nibble) : Statement (.cmd port kind) := rfl
theorem data (port : Nibble) : Statement (.data port) := rfl
theorem txDelay (port : Nibble) : Statement (.txDelay port) := rfl
theorem persist (port : Nibble) : Statement (.persist port) := rfl
theorem slotTime (port : Nibble) : Statement (.slotTime port) := rfl
theorem txTail (port : Nibble) : Statement (.txTail port) := rfl
theorem fullDup (port : Nibble) : Statement (.fullDup port) := rfl
theorem setHw (port : Nibble) : Statement (.setHw port) := rfl
theorem reservedKind7 (port : Nibble) : Statement (.reservedKind7 port) := rfl
theorem reservedKind8 (port : Nibble) : Statement (.reservedKind8 port) := rfl
theorem reservedKind9 (port : Nibble) : Statement (.reservedKind9 port) := rfl
theorem reservedKind10 (port : Nibble) : Statement (.reservedKind10 port) := rfl
theorem reservedKind11 (port : Nibble) : Statement (.reservedKind11 port) := rfl
theorem reservedKind12 (port : Nibble) : Statement (.reservedKind12 port) := rfl
theorem reservedKind13 (port : Nibble) : Statement (.reservedKind13 port) := rfl
theorem reservedKind14 (port : Nibble) : Statement (.reservedKind14 port) := rfl
theorem exit : Statement (.exit) := rfl
theorem kindFOtherPort (port : Nibble) : Statement (.kindFOtherPort port) := rfl
theorem escape (bs : List Byte) : Statement (.escape bs) := rfl
theorem unescape (bs : List Byte) : Statement (.unescape bs) := rfl
theorem encOpen (cfg : EncCfg) : Statement (.encOpen cfg) := rfl
theorem encWrite (bs : List Byte) : Statement (.encWrite bs) := rfl
theorem encClose : Statement (.encClose) := rfl
theorem decChunk (bs : List Byte) : Statement (.decChunk bs) := rfl
theorem decEnd : Statement (.decEnd) := rfl
theorem reset (ecb : Bool) (eob : Bool) : Statement (.reset ecb eob) := rfl
theorem escByte (b : Byte) : Statement (.escByte b) := rfl
theorem escEnd : Statement (.escEnd) := rfl
theorem unescByte (b : Byte) : Statement (.unescByte b) := rfl
theorem unescEnd : Statement (.unescEnd) := rfl
theorem encByte (b : Byte) : Statement (.encByte b) := rfl
theorem encEow : Statement (.encEow) := rfl
theorem encEos : Statement (.encEos) := rfl
theorem decByte (b : Byte) : Statement (.decByte b) := rfl
theorem decCend : Statement (.decCend) := rfl
theorem decEos : Statement (.decEos) := rfl
theorem reservedBeat11 (ch : InChannel) (d : Byte) : Statement (.reservedBeat11 ch d) := rfl
theorem outByte (ch : OutChannel) (b : Byte) : Statement (.outByte ch b) := rfl
theorem outEnd (ch : EndChannel) : Statement (.outEnd ch) := by cases ch <;> rfl
theorem outEom : Statement (.outEom) := rfl
theorem outHdr (p : Nibble) : Statement (.outHdr p) := rfl

end Sys2Proof.Laws.Channel
end

