-- ==== Sys2Proof/Laws/Run.lean ====
section
/-! SUPPORT. What waiting at an input means (70_reset_and_hazards.md R236), so that proofs need not unfold it. -/

namespace Sys2Proof.Machine

@[simp] theorem nextInput_nil (input : Presentation → Bool) : nextInput input [] = none := rfl

/-- What is presented first to the input is what it is presented next. -/
theorem nextInput_cons_input {input : Presentation → Bool} {x : Presentation} {xs : List Presentation} (hr : isRst x = false)
    (hx : input x = true) : nextInput input (x :: xs) = some x := by
  simp [nextInput, hr, hx]

/-- What other units and consumers are presented first makes no difference to the input. -/
theorem nextInput_cons_other {input : Presentation → Bool} {x : Presentation} {xs : List Presentation} (hr : isRst x = false)
    (hx : input x = false) : nextInput input (x :: xs) = nextInput input xs := by
  simp [nextInput, hr, hx]

/-- A token waits exactly when the form its input is presented next names no operation, or one that is not admitted. -/
theorem tokenWaits_iff (input : Presentation → Bool) (s : State) :
    tokenWaits input s = true ↔
      ∃ x, nextInput input s.env = some x ∧ ∀ i, decode s.dec.position x = .ok i → admits i s = false := by
  unfold tokenWaits
  cases h : nextInput input s.env with
  | none => simp
  | some x => cases hd : decode s.dec.position x <;> simp [hd]

/-- With nothing presented to an input, nothing waits there. -/
theorem tokenWaits_of_nextInput_none {input : Presentation → Bool} {s : State} (h : nextInput input s.env = none) :
    tokenWaits input s = false := by
  simp [tokenWaits, h]

end Sys2Proof.Machine
end

