-- ==== Sys2Proof/Laws/Words.lean ====
section
/-! SUPPORT. The fields of command bytes and of beats: what is assembled is what is read back. -/

namespace Sys2Proof

@[simp] theorem portOf_cmdByte (port kind : Nibble) : portOf (cmdByte port kind) = port := by
  revert port kind; decide

@[simp] theorem kindOf_cmdByte (port kind : Nibble) : kindOf (cmdByte port kind) = kind := by
  revert port kind; decide

/-- A command byte is its two nibbles. -/
@[simp] theorem cmdByte_portOf_kindOf (b : Byte) : cmdByte (portOf b) (kindOf b) = b := by
  revert b; decide

@[simp] theorem beatKind_mkBeat (k : BeatKind) (d : Byte) : beatKind (mkBeat k d) = k := by
  revert k d; decide

@[simp] theorem beatData_mkBeat (k : BeatKind) (d : Byte) : beatData (mkBeat k d) = d := by
  unfold beatData mkBeat; ext i hi; simp

/-- The four beats that carry a token are told apart by their kind bits. -/
@[simp] theorem beatKind_byteBeat (b : Byte) : beatKind (byteBeat b) = 0#2 := by simp [byteBeat]
@[simp] theorem beatData_byteBeat (b : Byte) : beatData (byteBeat b) = b := by simp [byteBeat]
@[simp] theorem beatKind_closeBeat : beatKind closeBeat = 1#2 := by simp [closeBeat]
@[simp] theorem beatKind_eosBeat : beatKind eosBeat = 2#2 := by simp [eosBeat]

/-- A byte is `MARK` as a command byte only for port 12 and kind 0 (30_encoding.md R92). -/
theorem cmdByte_eq_mark_iff (port kind : Nibble) : cmdByte port kind = Wire.MARK ↔ port = 12#4 ∧ kind = 0#4 := by
  revert port kind; decide

/-- A byte is 0xFF as a command byte only for port 15 and kind 15 (30_encoding.md R84). -/
theorem cmdByte_eq_exit_iff (port kind : Nibble) : cmdByte port kind = Wire.EXIT_BYTE ↔ port = 15#4 ∧ kind = 15#4 := by
  revert port kind; decide

end Sys2Proof
end

