-- ==== Sys2Proof/Tests/Slice0.lean ====
section
/-! SUPPORT. The model's own tests: ill-formed operands refused, words written out from the spec's encodings, the vectors of
95_test_vectors.md one step at a time, and a witness for the hypotheses of each statement. -/

namespace Sys2Proof.Tests

open Machine Safety

/-! ### Helpers -/

/-- The state a result answers, if it answers one. -/
def nextOf : Result → Option State
  | .next s => some s
  | .fault _ => none
  | .refused _ => none

/-- The fault a result answers, if it answers one. -/
def faultOf : Result → Option Fault
  | .next _ => none
  | .fault f => some f
  | .refused _ => none

/-- The record with a port and no optional field. -/
def cfgPort (port : Byte) : EncCfg :=
  { port := some port, fd := none, hw := none, pers := none, slot := none, txd := none, txt := none }

/-- A constructed encoder of a port, in a phase, nothing emitted. -/
def enc (port : Nibble) (st : EncState) : State :=
  { State.reset with enc := { State.reset.enc with st := st, port := port, cmd := cmdRegsOf port, pre := frameStartOf port } }

/-- A decoder with a buffer, in a mode. -/
def dec (buf : List Byte) (ecb eob : Bool) : State :=
  { State.reset with dec := { State.reset.dec with buf := buf, ecb := ecb, eob := eob } }

/-- A state with a finite buffer capacity. -/
def withCap (s : State) (c : Nat) : State := { s with params := { s.params with bufCap := some c } }

def encGains (i : Instr) (s : State) : Option (List Byte × EncState) := (nextOf (exec i s)).map fun t => (t.enc.out.trace, t.enc.st)
def decGains (i : Instr) (s : State) : Option (List DecToken × List Byte) := (nextOf (exec i s)).map fun t => (t.dec.out.trace, t.dec.buf)
def escGains (i : Instr) (s : State) : Option (List EscToken) := (nextOf (exec i s)).map fun t => t.esc.out.trace
def unescGains (i : Instr) (s : State) : Option (List EscToken × Bool) := (nextOf (exec i s)).map fun t => (t.unesc.out.trace, t.unesc.pend)

/-! ### Ill-formed operands are refused (R80, R85, R86, R92) -/

theorem test_wf_lit_mark : (Instr.lit 0xC0#8).wellFormed = false := by decide
theorem test_wf_lit_esc : (Instr.lit 0xDB#8).wellFormed = false := by decide
theorem test_wf_escBad_mark : (Instr.escBad 0xC0#8).wellFormed = false := by decide
theorem test_wf_escBad_codes : (Instr.escBad 0xDC#8).wellFormed = false ∧ (Instr.escBad 0xDD#8).wellFormed = false := by decide
theorem test_wf_cmd_mark : (Instr.cmd 0xC#4 0x0#4).wellFormed = false := by decide
theorem test_wf_data_port12 : (Instr.data 12#4).wellFormed = false := by decide
theorem test_wf_kindF_port15 : (Instr.kindFOtherPort 15#4).wellFormed = false := by decide

/-! ### One word of every row, written out from R80, R85, R86, R98 and R34 -/

theorem test_decode_mark : decode .afterEsc (.wire 0b11000000#8) = .ok .mark := by decide
theorem test_decode_esc : decode .content (.wire 0b11011011#8) = .ok .esc := by decide
theorem test_decode_escMark : decode .afterEsc (.wire 0b11011100#8) = .ok .escMark := by decide
theorem test_decode_escEsc : decode .afterEsc (.wire 0b11011101#8) = .ok .escEsc := by decide
theorem test_decode_escBad : decode .afterEsc (.wire 0xDB#8) = .ok (.escBad 0xDB#8) := by decide
theorem test_decode_lit : decode .content (.wire 0xDC#8) = .ok (.lit 0xDC#8) := by decide
theorem test_decode_cmd : decode .runStart (.wire 0xDB#8) = .ok (.cmd 0xD#4 0xB#4) := by decide
theorem test_decode_data : decode .runStart (.command 0b10100000#8) = .ok (.data 10#4) := by decide
theorem test_decode_txDelay : decode .runStart (.command 0b00110001#8) = .ok (.txDelay 3#4) := by decide
theorem test_decode_persist : decode .runStart (.command 0b00110010#8) = .ok (.persist 3#4) := by decide
theorem test_decode_slotTime : decode .runStart (.command 0b11000011#8) = .ok (.slotTime 12#4) := by decide
theorem test_decode_txTail : decode .runStart (.command 0b00000100#8) = .ok (.txTail 0#4) := by decide
theorem test_decode_fullDup : decode .runStart (.command 0b00110101#8) = .ok (.fullDup 3#4) := by decide
theorem test_decode_setHw : decode .runStart (.command 0b00110110#8) = .ok (.setHw 3#4) := by decide
theorem test_decode_reservedKind7 : decode .runStart (.command 0b00110111#8) = .ok (.reservedKind7 3#4) := by decide
theorem test_decode_reservedKind8 : decode .runStart (.command 0b11111000#8) = .ok (.reservedKind8 15#4) := by decide
theorem test_decode_reservedKind9 : decode .runStart (.command 0b00001001#8) = .ok (.reservedKind9 0#4) := by decide
theorem test_decode_reservedKind10 : decode .runStart (.command 0b00011010#8) = .ok (.reservedKind10 1#4) := by decide
theorem test_decode_reservedKind11 : decode .runStart (.command 0b11011011#8) = .ok (.reservedKind11 13#4) := by decide
theorem test_decode_reservedKind12 : decode .runStart (.command 0b11011100#8) = .ok (.reservedKind12 13#4) := by decide
theorem test_decode_reservedKind13 : decode .runStart (.command 0b11011101#8) = .ok (.reservedKind13 13#4) := by decide
theorem test_decode_reservedKind14 : decode .runStart (.command 0b11111110#8) = .ok (.reservedKind14 15#4) := by decide
theorem test_decode_exit : decode .runStart (.command 0b11111111#8) = .ok .exit := by decide
theorem test_decode_kindF : decode .runStart (.command 0b11101111#8) = .ok (.kindFOtherPort 14#4) := by decide
theorem test_decode_escape : decode .runStart (.call .escIn [0b0011000000#10, 0b0100000000#10]) = .ok (.escape [0xC0#8]) := by decide
theorem test_decode_unescape : decode .runStart (.call .unescIn [0b0100000000#10]) = .ok (.unescape []) := by decide
theorem test_decode_encWrite : decode .runStart (.call .encIn [0b0000000001#10, 0b0100000000#10]) = .ok (.encWrite [1#8]) := by decide
theorem test_decode_encClose : decode .runStart (.call .encIn [0b1000000000#10]) = .ok .encClose := by decide
theorem test_decode_decChunk : decode .runStart (.call .decIn [0b0011000000#10, 0b0100000000#10]) = .ok (.decChunk [0xC0#8]) := by decide
theorem test_decode_decEnd : decode .runStart (.call .decIn [0b1000000000#10]) = .ok .decEnd := by decide
theorem test_decode_reset : decode .runStart (.rst false true) = .ok (.reset false true) := by decide
theorem test_decode_escByte : decode .runStart (.beat .escIn 0b0011011100#10) = .ok (.escByte 0xDC#8) := by decide
theorem test_decode_escEnd : decode .runStart (.beat .escIn 0b0111111111#10) = .ok .escEnd := by decide
theorem test_decode_unescByte : decode .runStart (.beat .unescIn 0b0011011011#10) = .ok (.unescByte 0xDB#8) := by decide
theorem test_decode_unescEnd : decode .runStart (.beat .unescIn 0b0100000000#10) = .ok .unescEnd := by decide
theorem test_decode_encByte : decode .runStart (.beat .encIn 0b0000000011#10) = .ok (.encByte 3#8) := by decide
theorem test_decode_encEow : decode .runStart (.beat .encIn 0b0100000001#10) = .ok .encEow := by decide
theorem test_decode_encEos : decode .runStart (.beat .encIn 0b1000000000#10) = .ok .encEos := by decide
theorem test_decode_decByte : decode .runStart (.beat .decIn 0b0001000001#10) = .ok (.decByte 0x41#8) := by decide
theorem test_decode_decCend : decode .runStart (.beat .decIn 0b0100000000#10) = .ok .decCend := by decide
theorem test_decode_decEos : decode .runStart (.beat .decIn 0b1011111111#10) = .ok .decEos := by decide
theorem test_decode_reservedBeat11 : decode .runStart (.beat .encIn 0b1100000101#10) = .ok (.reservedBeat11 .encIn 5#8) := by decide
theorem test_decode_outByte : decode .runStart (.take .encOut 0b0011000000#10) = .ok (.outByte .encOut 0xC0#8) := by decide
theorem test_decode_outEnd : decode .runStart (.take .unescOut 0b0100000000#10) = .ok (.outEnd .unescOut) := by decide
theorem test_decode_outEom : decode .runStart (.take .decOut 0b0100000000#10) = .ok .outEom := by decide
theorem test_decode_outHdr : decode .runStart (.take .decOut 0b1000001101#10) = .ok (.outHdr 13#4) := by decide

/-- P2, step 1: the record `port_present=1, port=05, pers_present=1, pers=3F, txd_present=1, txd=12C`; an absent field's value pins
are ignored. -/
theorem test_decode_encOpen :
    decode .runStart (.encOpen
      { portPresent := true, port := 5#8, fdPresent := false, fd := true, hwPresent := false, hw := [1#8], persPresent := true
        pers := 0x3F#8, slotPresent := false, slot := 7#12, txdPresent := true, txd := 0x12C#12, txtPresent := false
        txt := 0#12 }) =
      .ok (.encOpen { cfgPort 5#8 with pers := some 0x3F#8, txd := some 300#12 }) := by decide

/-- R99: kind 10 on esc_in names no token; R98: `END` on enc_out and a header with a high nibble are never produced. -/
theorem test_decode_rejects :
    decode .runStart (.beat .escIn 0x200#10) = .error .reservedKind10 ∧
      decode .runStart (.take .encOut 0x100#10) = .error .noSuchOutput ∧
      decode .runStart (.take .decOut 0x210#10) = .error .noSuchOutput ∧
      decode .runStart (.call .escIn [0x0C0#10]) = .error .malformedCall := by decide

/-! ### Table words (log 4) -/

theorem test_table_bytes :
    decodeTableWord 8 0xC0 = some .mark ∧ decodeTableWord 8 0xDC = some .escMark ∧ decodeTableWord 8 0x0F = some (.kindFOtherPort 0#4) := by
  decide
theorem test_table_beats : decodeTableWord 16 0x200 = some .decEos ∧ decodeTableWord 16 0x800 = some (.escByte 0#8) := by decide
/-- The very next step runs the word's row: `ESC` is taken in content, behind a command byte. -/
theorem test_table_step :
    (nextOf (step (State.reset.withFetchWord 8 0xDB))).map (fun t => (t.dec.buf, t.env)) = some ([0x00#8, 0xDB#8], []) := by decide

/-! ### The escaper: V8, V14, V17, V12 and the B-level trace of 95_test_vectors.md section 3 -/

theorem test_escape_V8 :
    escGains (.escape [0xDC#8, 0xDD#8, 0xDB#8, 0xC0#8, 0x00#8, 0xFF#8]) State.reset =
      some ([0xDC#8, 0xDD#8, 0xDB#8, 0xDD#8, 0xDB#8, 0xDC#8, 0x00#8, 0xFF#8].map EscToken.byte ++ [.close]) := by decide
theorem test_escByte_V2 : escGains (.escByte 0xC0#8) State.reset = some [.byte 0xDB#8, .byte 0xDC#8] := by decide
theorem test_escEnd : escGains .escEnd State.reset = some [.close] := by decide
theorem test_unescape_V14 : unescGains (.unescape [0xDB#8, 0xDB#8, 0xDC#8]) State.reset = some ([.byte 0xDC#8, .close], false) := by decide
theorem test_unescape_V12 :
    unescGains (.unescape [0x41#8, 0xDB#8, 0x42#8, 0x43#8]) State.reset = some ([.byte 0x41#8, .byte 0x43#8, .close], false) := by decide
theorem test_unescByte_opens : unescGains (.unescByte 0xDB#8) State.reset = some ([], true) := by decide
theorem test_unescByte_pending_esc : unescGains (.unescByte 0xDB#8) (State.reset.setPend true) = some ([], false) := by decide
theorem test_unescEnd_V17 : unescGains .unescEnd (State.reset.setPend true) = some ([.close], false) := by decide

/-! ### The encoder: S5, S6, V22 to V33 -/

theorem test_encOpen_S5 :
    encGains (.encOpen { cfgPort 12#8 with slot := some 420#12 }) State.reset = some ([0xC0#8, 0xC3#8, 0x2A#8, 0xC0#8], .ready) := by
  decide
theorem test_encOpen_V23 :
    encGains
      (.encOpen
        { port := some 3#8, fd := some true, hw := some [0x11#8, 0xC0#8, 0xDB#8], pers := some 63#8, slot := some 100#12
          txd := some 500#12, txt := some 0#12 })
      State.reset =
      some
        ([0xC0#8, 0x35#8, 0x01#8, 0xC0#8] ++ [0xC0#8, 0x36#8, 0x11#8, 0xC0#8, 0xDB#8, 0xC0#8] ++ [0xC0#8, 0x32#8, 0x3F#8, 0xC0#8] ++
          [0xC0#8, 0x33#8, 0x0A#8, 0xC0#8] ++ [0xC0#8, 0x31#8, 0x32#8, 0xC0#8], .ready) := by decide
theorem test_encOpen_V22_bad_port : encGains (.encOpen { cfgPort 255#8 with slot := some 3000#12 }) State.reset = some ([], .error) := by decide
theorem test_encOpen_V26_range : faultOf (exec (.encOpen { cfgPort 4#8 with slot := some 2560#12 }) State.reset) = some .openTimeRange := by decide
theorem test_encWrite_S6 :
    encGains (.encWrite [0xC0#8, 0xDB#8]) (enc 12#4 .ready) =
      some ([0xC0#8, 0xC0#8, 0xDB#8, 0xDC#8, 0xDB#8, 0xDD#8, 0xC0#8], .ready) := by decide
theorem test_encClose_V33 : encGains .encClose (enc 9#4 .ready) = some ([0xC0#8, 0xFF#8, 0xC0#8], .closed) := by decide
theorem test_encWrite_V32_closed : faultOf (exec (.encWrite [3#8]) (enc 5#4 .closed)) = some (.encNotAdmitted .closed) := by decide
theorem test_encByte_opens : encGains (.encByte 0x01#8) (enc 5#4 .ready) = some ([0xC0#8, 0x50#8, 0x01#8], .inWrite) := by decide
theorem test_encByte_escapes : encGains (.encByte 0xC0#8) (enc 5#4 .inWrite) = some ([0xDB#8, 0xDC#8], .inWrite) := by decide
theorem test_encEow_empty : encGains .encEow (enc 5#4 .ready) = some ([0xC0#8, 0x50#8, 0xC0#8], .ready) := by decide
theorem test_encEow_closes : encGains .encEow (enc 5#4 .inWrite) = some ([0xC0#8], .ready) := by decide
theorem test_encEos : encGains .encEos (enc 5#4 .ready) = some ([0xC0#8, 0xFF#8, 0xC0#8], .closed) := by decide
theorem test_encEos_inWrite : faultOf (exec .encEos (enc 5#4 .inWrite)) = some (.encNotAdmitted .inWrite) := by decide

/-! ### The decoder: S7, V40, V42, V43, V51, P3, P4 -/

theorem test_decChunk_S7 :
    decGains (.decChunk [0xC0#8]) (dec [0xA0#8, 0x68#8, 0x65#8] false false) = some ([.byte 0x68#8, .byte 0x65#8, .eom], []) := by decide
theorem test_decChunk_V40 :
    decGains (.decChunk [0xC0#8, 0x00#8, 0x41#8, 0xDB#8, 0xC0#8, 0x10#8, 0x42#8, 0xC0#8]) (dec [] false true) =
      some ([.hdr 0#4, .byte 0x41#8, .eom, .hdr 1#4, .byte 0x42#8, .eom], []) := by decide
theorem test_decChunk_V51_overflow :
    (nextOf (exec (.decChunk [0xC0#8, 0x00#8, 0x41#8, 0x42#8, 0x43#8]) (withCap State.reset 3))).map
      (fun t => (t.dec.ovf, t.dec.out.trace)) = some (true, []) := by decide
theorem test_decEnd_V43 : decGains .decEnd (dec [0x20#8, 0x44#8] true false) = some ([.byte 0x20#8, .byte 0x44#8, .eom], []) := by decide
theorem test_decByte_append : decGains (.decByte 0xDB#8) (dec [0xA0#8] false false) = some ([], [0xA0#8, 0xDB#8]) := by decide
theorem test_decByte_V42 : decGains (.decByte 0xC0#8) (dec [0xDB#8, 0xDC#8, 0x41#8] true false) =
    some ([.byte 0xDB#8, .byte 0xDC#8, .byte 0x41#8, .eom], []) := by decide
theorem test_decCend : decGains .decCend (dec [0x41#8] false false) = some ([], [0x41#8]) := by decide
theorem test_decEos_V52 : (nextOf (exec .decEos State.reset)).map (fun t => t.dec.ended) = some true := by decide
theorem test_decByte_P6_overflow :
    (nextOf (exec (.decByte 0x44#8) (withCap (dec [0x00#8, 0x41#8, 0x42#8, 0x43#8] false false) 4))).map (fun t => t.dec.ovf) =
      some true := by decide

/-! ### Wire rows and command rows, taken as their bytes -/

theorem test_mark_closes : decGains .mark (dec [0xC3#8, 0x2A#8] false true) = some ([.hdr 12#4, .byte 0x2A#8, .eom], []) := by decide
theorem test_esc_buffered : decGains .esc (dec [0x00#8] false false) = some ([], [0x00#8, 0xDB#8]) := by decide
theorem test_escMark_buffered : decGains .escMark (dec [0x00#8, 0xDB#8] false false) = some ([], [0x00#8, 0xDB#8, 0xDC#8]) := by decide
theorem test_escEsc_buffered : decGains .escEsc (dec [0x00#8, 0xDB#8] false false) = some ([], [0x00#8, 0xDB#8, 0xDD#8]) := by decide
theorem test_escBad_dropped_later : (nextOf (exec (.escBad 0x42#8) (dec [0x00#8, 0xDB#8] false false))).bind (fun t => decGains .mark t) =
    some ([.eom], []) := by decide
theorem test_lit_buffered : decGains (.lit 0xDC#8) (dec [0x00#8] false false) = some ([], [0x00#8, 0xDC#8]) := by decide
theorem test_cmd_raw : decGains (.cmd 0xD#4 0xB#4) State.reset = some ([], [0xDB#8]) := by decide
theorem test_command_rows_0_to_6 :
    [Instr.data 1#4, .txDelay 1#4, .persist 1#4, .slotTime 1#4, .txTail 1#4, .fullDup 1#4, .setHw 1#4].map (fun i => decGains i State.reset) =
      [0x10#8, 0x11#8, 0x12#8, 0x13#8, 0x14#8, 0x15#8, 0x16#8].map (fun b => some ([], [b])) := by decide
theorem test_command_rows_7_to_14 :
    [Instr.reservedKind7 2#4, .reservedKind8 2#4, .reservedKind9 2#4, .reservedKind10 2#4, .reservedKind11 2#4, .reservedKind12 2#4,
      .reservedKind13 2#4, .reservedKind14 2#4].map (fun i => decGains i State.reset) =
      [0x27#8, 0x28#8, 0x29#8, 0x2A#8, 0x2B#8, 0x2C#8, 0x2D#8, 0x2E#8].map (fun b => some ([], [b])) := by decide
theorem test_command_rows_15 :
    [Instr.exit, .kindFOtherPort 2#4].map (fun i => decGains i State.reset) = [0xFF#8, 0x2F#8].map (fun b => some ([], [b])) := by decide
/-- R92: the data command byte of port 12 is the marker. -/
theorem test_data_port12 : decGains (.data 12#4) (dec [0x41#8] false false) = some ([.eom], []) := by decide

/-! ### Reset, the reserved beat, the output tokens -/

theorem test_reset_straps :
    (nextOf (exec (.reset true false) (dec [0x41#8] false true))).map
      (fun t => (t.dec.buf, t.dec.ecb, t.dec.eob, t.enc.st, t.enc.err)) = some ([], true, false, .unconf, false) := by decide
theorem test_reservedBeat11 : faultOf (exec (.reservedBeat11 .decIn 0#8) State.reset) = some .reservedBeat := by decide
theorem test_outByte_taken :
    (nextOf (exec (.outByte .encOut 0xC0#8) ((enc 5#4 .ready).emitEnc [0xC0#8]))).map (fun t => (t.enc.out.trace, t.enc.out.taken)) =
      some ([0xC0#8], 1) := by decide
theorem test_outEnd_taken :
    (nextOf (exec (.outEnd .escOut) (State.reset.emitEsc [.close]))).map (fun t => t.esc.out.taken) = some 1 := by decide
theorem test_outEom_taken :
    (nextOf (exec .outEom (State.reset.emitDec [.eom]))).map (fun t => t.dec.out.taken) = some 1 := by decide
theorem test_outHdr_taken :
    (nextOf (exec (.outHdr 5#4) (State.reset.emitDec [.hdr 5#4, .eom]))).map (fun t => t.dec.out.taken) = some 1 := by decide
theorem test_outHdr_not_offered : faultOf (exec (.outHdr 5#4) (State.reset.emitDec [.eom])) = some .notOffered := by decide

/-! ### Witnesses: for each statement with hypotheses, states and operands that meet them, with a boundary value for each clause -/

theorem witness_DecodeOfEncodeIsTheInstruction :
    ((Instr.escBad 0xFF#8).wellFormed = true ∧ (Instr.escBad 0xFF#8).standsAt .afterEsc = true) ∧
      ((Instr.data 15#4).wellFormed = true ∧ (Instr.data 15#4).standsAt .runStart = true) ∧
      ((Instr.decChunk [0xC0#8, 0xFF#8]).wellFormed = true ∧ (Instr.decChunk [0xC0#8, 0xFF#8]).standsAt .content = true) := by decide

theorem witness_DecodedInstructionIsWellFormedInItsPosition :
    decode .afterEsc (.wire 0xFF#8) = .ok (.escBad 0xFF#8) ∧ decode .content (.beat .decIn 0x3FF#10) = .ok (.reservedBeat11 .decIn 0xFF#8) := by
  decide

theorem witness_WireClassFollowsValueAndPosition :
    (∃ b : Byte, b = 0xC0#8) ∧ (∃ b : Byte, b ≠ 0xC0#8) ∧ (∃ b : Byte, b = 0xDB#8) ∧
      (∃ b : Byte, b ≠ 0xC0#8 ∧ b ≠ 0xDB#8 ∧ b = 0xDC#8) ∧ (∃ b : Byte, b = 0xDD#8) ∧
      ∃ b : Byte, b ≠ 0xC0#8 ∧ b ≠ 0xDC#8 ∧ b ≠ 0xDD#8 ∧ b = 0xDE#8 := by
  refine ⟨⟨_, rfl⟩, ⟨0xFF#8, by decide⟩, ⟨_, rfl⟩, ⟨0xDC#8, by decide⟩, ⟨_, rfl⟩, ⟨0xDE#8, by decide⟩⟩

/-- A state with forms presented. -/
def presented (xs : List Presentation) : State := { State.reset with env := xs }

theorem witness_StepRunsTheDecodedInstruction :
    ((presented [.beat .escIn 0x0C0#10]).env = .beat .escIn 0x0C0#10 :: [] ∧
      decode (presented [.beat .escIn 0x0C0#10]).dec.position (.beat .escIn 0x0C0#10) = .ok (.escByte 0xC0#8)) ∧
      ((presented [.take .encOut 0x100#10]).env = .take .encOut 0x100#10 :: [] ∧
        decode (presented [.take .encOut 0x100#10]).dec.position (.take .encOut 0x100#10) = .error .noSuchOutput) ∧
      State.reset.env = [] := by decide

theorem witness_PresentedTableWordRunsNext :
    decodeTableWord 8 0xDC = some .escMark ∧ Instr.escMark.standsAt (dec [0x00#8, 0xDB#8] false false).dec.position = true ∧
      Instr.escMark.standsAt State.reset.dec.position = false ∧ decodeTableWord 16 0x3FF = some (.reservedBeat11 .decIn 0xFF#8) := by decide

/-- Every constructor but the reserved beat is admitted somewhere. -/
theorem witness_ExecCompletesExactlyWhenAdmitted :
    ([Instr.mark, .esc, .escMark, .escEsc, .escBad 0#8, .lit 0#8, .cmd 0#4 0#4, .data 0#4, .txDelay 0#4, .persist 0#4, .slotTime 0#4,
        .txTail 0#4, .fullDup 0#4, .setHw 0#4, .reservedKind7 0#4, .reservedKind8 0#4, .reservedKind9 0#4, .reservedKind10 0#4,
        .reservedKind11 0#4, .reservedKind12 0#4, .reservedKind13 0#4, .reservedKind14 0#4, .exit, .kindFOtherPort 0#4].all
          (admits · State.reset)) = true ∧
      ([Instr.escape [0#8], .unescape [0#8], .encOpen (cfgPort 5#8), .decChunk [0#8], .decEnd, .reset true true, .escByte 0#8, .escEnd,
        .unescByte 0#8, .unescEnd, .decByte 0#8, .decCend, .decEos].all (admits · State.reset)) = true ∧
      ([Instr.encWrite [], .encClose, .encByte 0#8, .encEow, .encEos].all (admits · (enc 5#4 .ready))) = true ∧
      admits (.outByte .encOut 1#8) (State.reset.emitEnc [1#8]) = true ∧ admits (.outEnd .escOut) (State.reset.emitEsc [.close]) = true ∧
      admits .outEom (State.reset.emitDec [.eom]) = true ∧ admits (.outHdr 5#4) (State.reset.emitDec [.hdr 5#4]) = true ∧
      admits (.reservedBeat11 .encIn 0#8) State.reset = false := by decide

theorem witness_ReservedBeatsAreNeverAdmitted :
    (presented [.beat .escIn 0x200#10]).env = .beat .escIn 0x200#10 :: [] ∧ 0x200 ≤ (0x200#10 : Beat).toNat ∧ (0x200#10 : Beat).toNat < 0x300 ∧
      (presented [.beat .unescIn 0x2FF#10]).env = .beat .unescIn 0x2FF#10 :: [] ∧ (0x2FF#10 : Beat).toNat < 0x300 := by decide

theorem witness_EscapeReplacesEachReservedByte :
    (∃ b : Byte, b ≠ 0xC0#8 ∧ b ≠ 0xDB#8 ∧ b = 0xDC#8) ∧ ∃ b : Byte, b ≠ 0xC0#8 ∧ b ≠ 0xDB#8 ∧ b = 0xDD#8 := by
  exact ⟨⟨0xDC#8, by decide⟩, ⟨0xDD#8, by decide⟩⟩

theorem witness_UnescapeProperties : (0xDB#8 : Byte) ∉ [0xDC#8, 0xC0#8, 0xDD#8] := by decide

theorem witness_UnescapeScansLeftToRight :
    (∃ x : Byte, x ≠ 0xDC#8 ∧ x ≠ 0xDD#8 ∧ x = 0xDB#8) ∧ ∃ b : Byte, b ≠ 0xDB#8 ∧ b = 0xDC#8 := by
  exact ⟨⟨0xDB#8, by decide⟩, ⟨0xDC#8, by decide⟩⟩

theorem witness_MalformedPairIsDroppedWithoutRescan :
    escPending [0x41#8, 0xDB#8, 0xDB#8] = false ∧ (0xDB#8 : Byte) ≠ 0xDC#8 ∧ (0xDB#8 : Byte) ≠ 0xDD#8 ∧ escPending [0xDB#8] = true := by
  decide

theorem witness_UnescTokensFollowPend :
    State.reset.unesc.pend = false ∧ (0xDC#8 : Byte) ≠ 0xDB#8 ∧ (State.reset.setPend true).unesc.pend = true := by decide

theorem witness_UnescapeCallRunsBetweenCalls :
    State.reset.unesc.pend = false ∧ (State.reset.setPend true).unesc.pend = true := by decide

theorem witness_UnescapeCallEqualsItsTokens : State.reset.unesc.pend = false := by decide

theorem witness_OpenWithoutValidPortTakesConfigError :
    State.reset.enc.st = .unconf ∧ { cfgPort 0#8 with port := none }.port = none ∧
      (cfgPort 16#8).port = some 16#8 ∧ 15 < (16#8 : Byte).toNat := by decide

theorem witness_OpenWithValidPortConstructs :
    State.reset.enc.st = .unconf ∧ (cfgPort 15#8).port = some 15#8 ∧ (15#8 : Byte).toNat ≤ 15 ∧
      (∀ ms, { cfgPort 15#8 with slot := some 2559#12, hw := some [0xC0#8] }.slot = some ms ∨
        { cfgPort 15#8 with slot := some 2559#12, hw := some [0xC0#8] }.txd = some ms ∨
        { cfgPort 15#8 with slot := some 2559#12, hw := some [0xC0#8] }.txt = some ms → ms.toNat ≤ 2559) ∧
      (∀ m hw, (some 1 : Option Nat) = some m →
        { cfgPort 15#8 with slot := some 2559#12, hw := some [0xC0#8] }.hw = some hw → hw.length ≤ m) := by
  refine ⟨rfl, rfl, by decide, ?_, ?_⟩
  · rintro ms (h | h | h) <;> cases h
    decide
  · intro m hw hm hh
    cases hm
    cases hh
    decide

theorem witness_InitFramesCarryTheirValueBytes :
    (1#12 : Millis) ≠ 0#12 ∧ (1#12 : Millis).toNat ≤ 2559 ∧ (2559#12 : Millis).toNat ≤ 2559 ∧
      { cfgPort 0#8 with txt := some 0#12 }.txt = some 0#12 ∧ (cfgPort 0#8).txt = none := by decide

theorem witness_OpenIsNotAdmittedOutsideItsRanges :
    (enc 5#4 .ready).enc.st ≠ .unconf ∧ State.reset.enc.st = .unconf ∧
      ({ cfgPort 0#8 with txt := some 2560#12 }.txt = some 2560#12 ∧ 2559 < (2560#12 : Millis).toNat) ∧
      ({ cfgPort 0#8 with hw := some [1#8] }.hw = some [1#8] ∧ 0 < [1#8].length ∧
        { State.reset.params with hwMax := some 0 }.hwMax = some 0) := by decide

theorem enc_regsAgree (port : Nibble) (st : EncState) : RegsAgree (enc port st).enc := by
  revert port
  cases st <;> (unfold RegsAgree; decide)

theorem witness_WriteEmitsExactlyOneFrame :
    ((enc 12#4 .ready).enc.st = .ready ∧ RegsAgree (enc 12#4 .ready).enc) ∧ (enc 5#4 .closed).enc.st ≠ .ready :=
  ⟨⟨rfl, enc_regsAgree _ _⟩, by decide⟩

theorem witness_WritesAreNeverCoalesced : (enc 15#4 .ready).enc.st = .ready ∧ RegsAgree (enc 15#4 .ready).enc :=
  ⟨rfl, enc_regsAgree _ _⟩

theorem witness_CloseEmitsTheTerminationFrame :
    (Instr.encEos = .encClose ∨ Instr.encEos = .encEos) ∧ (enc 0#4 .ready).enc.st = .ready ∧ (enc 0#4 .inWrite).enc.st ≠ .ready := by
  decide

theorem witness_EncoderTokensFollowTheTransitionTable :
    (enc 5#4 .ready).enc.st = .ready ∧ (enc 5#4 .inWrite).enc.st = .inWrite ∧
      ((enc 5#4 .closed).enc.st ≠ .ready ∧ (enc 5#4 .closed).enc.st ≠ .inWrite) := by decide

theorem witness_WriteEqualsItsTokens : (enc 5#4 .ready).enc.st = .ready := by decide

theorem witness_ClosedOrFailedEncoderNeverEmits :
    (∃ t, exec .escEnd (enc 5#4 .closed) = .next t) ∧ ¬ Instr.escEnd.isReset ∧ (enc 5#4 .closed).enc.st = .closed ∧
      (∃ t, exec (.outByte .encOut 1#8) ((enc 5#4 .error).emitEnc [1#8]) = .next t) ∧ ¬ (Instr.outByte .encOut 1#8).isReset ∧
      ((enc 5#4 .error).emitEnc [1#8]).enc.st = .error :=
  ⟨⟨_, rfl⟩, by decide, rfl, ⟨_, rfl⟩, by decide, rfl⟩

theorem witness_ConfigurationIsImmutableUntilReset :
    (∃ t, exec (.encWrite [1#8]) (enc 5#4 .ready) = .next t) ∧ ¬ (Instr.encWrite [1#8]).isReset ∧ (enc 5#4 .ready).enc.st ≠ .unconf :=
  ⟨⟨_, rfl⟩, by decide, by decide⟩

theorem witness_DecoderByteClosesOrAppends :
    (State.reset.dec.ended = false ∧ State.reset.dec.ovf = false ∧ State.reset.dec.buf = []) ∧
      (dec [0x00#8] false false).dec.buf ≠ [] ∧
      ∀ c, (withCap (dec [0x00#8] false false) 2).params.bufCap = some c → (withCap (dec [0x00#8] false false) 2).dec.buf.length < c := by
  refine ⟨by decide, by decide, fun c h => ?_⟩
  cases h
  decide

theorem witness_FullBufferTakesBufOverflow :
    (withCap (dec [0x00#8] false false) 1).dec.ended = false ∧ (withCap (dec [0x00#8] false false) 1).dec.ovf = false ∧
      (withCap (dec [0x00#8] false false) 1).params.bufCap = some 1 ∧ 1 ≤ (withCap (dec [0x00#8] false false) 1).dec.buf.length := by decide

theorem witness_WireRowsAreTakenAsTheirByte :
    Instr.exit.wireByte = some 0xFF#8 ∧ (Instr.data 12#4).wireByte = some 0xC0#8 ∧ State.reset.dec.buf = [] ∧
      (dec [0x00#8] true false).dec.buf ≠ [] ∧ State.reset.params.bufCap = none ∧
      ((withCap (dec [0x00#8] false false) 1).params.bufCap = some 1 ∧ 1 ≤ (withCap (dec [0x00#8] false false) 1).dec.buf.length) := by
  decide

theorem witness_ContentClassesContributeTheirData :
    ((dec [0xA0#8] false false).dec.ended = false ∧ (dec [0xA0#8] false false).dec.ovf = false ∧
      (dec [0xA0#8] false false).dec.position = .content) ∧
      (∀ c, (withCap (dec [0xA0#8] false false) 3).params.bufCap = some c →
        (withCap (dec [0xA0#8] false false) 3).dec.buf.length + 2 ≤ c) ∧
      (Instr.escBad 0xDB#8).wellFormed = true ∧ (Instr.lit 0xDC#8).wellFormed = true := by
  refine ⟨by decide, fun c h => ?_, by decide, by decide⟩
  cases h
  decide

theorem witness_MessageHasOneEomAndItsHeader : ([0x50#8] : List Byte) ≠ [] ∧ (true = true) := by decide

theorem witness_EndOfStreamFlushesTheBuffer :
    State.reset.dec.ended = false ∧ State.reset.dec.ovf = false ∧ State.reset.dec.buf = [] ∧ (dec [0x20#8] true false).dec.buf ≠ [] := by
  decide

/-- A decoder whose stream has ended, and one that has overflowed. -/
def endedDec : State := (dec [0x20#8] true false).setEnded
def overflowedDec : State := { dec [] false false with dec := { (dec [] false false).dec with ovf := true } }

theorem witness_EndedOrFaultedDecoderAdmitsNothing :
    endedDec.dec.ended = true ∧ overflowedDec.dec.ovf = true ∧ overflowedDec.dec.ended = false ∧ Instr.mark.wireByte ≠ none := by decide

theorem witness_ChunkEmitsItsClosedNonEmptyRuns :
    (withCap (dec [0x20#8] true false) 2).dec.ended = false ∧ (withCap (dec [0x20#8] true false) 2).dec.ovf = false ∧
      (0xC0#8 : Byte) ∉ (withCap (dec [0x20#8] true false) 2).dec.buf ∧
      ∀ r ∈ ((withCap (dec [0x20#8] true false) 2).dec.buf ++ [0x41#8, 0xC0#8, 0xC0#8, 0x10#8, 0x42#8]).splitOn (0xC0#8 : Byte),
        r.length ≤ 2 := by decide

theorem witness_ChunkEqualsItsTokens :
    (∃ t, execAll ([0x41#8, 0xC0#8].map .decByte ++ [.decCend]) (dec [0x20#8] true false) = .next t) ∧
      ∃ t, exec (.decChunk [0x41#8, 0xC0#8]) (dec [0x20#8] true false) = .next t ∧ t.dec.ovf = false :=
  ⟨⟨_, rfl⟩, ⟨_, rfl, rfl⟩⟩

theorem witness_ChunkSplitInvariance :
    ∃ t u, execAll [.decChunk [0x20#8, 0xDB#8], .decChunk [0xDC#8, 0xC0#8]] State.reset = .next u ∧
      exec (.decChunk [0x20#8, 0xDB#8]) State.reset = .next t ∧ t.dec.ovf = false := ⟨_, _, rfl, rfl, rfl⟩

theorem witness_AdjacentMarkersDoNothing :
    State.reset.dec.ended = false ∧ State.reset.dec.ovf = false ∧ State.reset.dec.buf = [] := by decide

theorem witness_EveryCommandByteIsDelivered :
    Instr.exit.wireByte = some 0xFF#8 ∧ Instr.exit.standsAt .runStart = true ∧ (0xFF#8 : Byte) ≠ 0xC0#8 ∧
      (withCap State.reset 1).dec.buf = [] ∧ ∀ c, (withCap State.reset 1).params.bufCap = some c → 1 ≤ c := by
  refine ⟨rfl, by decide, by decide, rfl, fun c h => ?_⟩
  cases h
  decide

theorem witness_LoopBackRestoresThePayload :
    (enc 5#4 .ready).enc.st = .ready ∧ RegsAgree (enc 5#4 .ready).enc ∧ (enc 5#4 .ready).enc.port ≠ 12#4 ∧
      (enc 5#4 .ready).dec.buf = [] ∧ (withCap (enc 5#4 .ready) 5).params.bufCap = some 5 ∧
      [0xC0#8, 0xDB#8].length + [0xC0#8, 0xDB#8].count (0xC0#8 : Byte) + [0xC0#8, 0xDB#8].count (0xDB#8 : Byte) + 1 ≤ 5 :=
  ⟨rfl, enc_regsAgree _ _, by decide, rfl, rfl, by decide⟩

theorem witness_PortTwelveLosesTheFirstPayloadByte :
    (enc 12#4 .ready).enc.st = .ready ∧ RegsAgree (enc 12#4 .ready).enc ∧ (enc 12#4 .ready).enc.port = 12#4 ∧
      (enc 12#4 .ready).dec.buf = [] ∧ (enc 12#4 .ready).params.bufCap = none :=
  ⟨rfl, enc_regsAgree _ _, rfl, rfl, rfl⟩

theorem witness_OutputTokensAreTakenInOrder :
    (State.reset.emitEsc [.byte 0xC0#8, .close]).esc.out.trace[0]? = some (.byte 0xC0#8) ∧
      (State.reset.emitEsc [.close]).esc.out.trace[0]? = some .close ∧
      (State.reset.emitUnesc [.byte 0xC0#8]).unesc.out.trace[0]? = some (.byte 0xC0#8) ∧
      (State.reset.emitUnesc [.close]).unesc.out.trace[0]? = some .close ∧
      (State.reset.emitEnc [0xC0#8]).enc.out.trace[0]? = some 0xC0#8 ∧
      (State.reset.emitDec [.byte 1#8]).dec.out.trace[0]? = some (.byte 1#8) ∧
      (State.reset.emitDec [.eom]).dec.out.trace[0]? = some .eom ∧
      (State.reset.emitDec [.hdr 15#4]).dec.out.trace[0]? = some (.hdr 15#4) ∧
      (State.reset.esc.out.trace[0]? ≠ some (.byte 0#8) ∧ State.reset.esc.out.trace[0]? ≠ some .close) ∧
      (State.reset.unesc.out.trace[0]? ≠ some (.byte 0#8) ∧ State.reset.unesc.out.trace[0]? ≠ some .close) ∧
      State.reset.enc.out.trace[0]? ≠ some 0#8 ∧
      (State.reset.dec.out.trace[0]? ≠ some (.byte 0#8) ∧ State.reset.dec.out.trace[0]? ≠ some .eom ∧
        State.reset.dec.out.trace[0]? ≠ some (.hdr 15#4)) := by decide

theorem witness_TracesOnlyGrow :
    (∃ t, exec (.escape [0xC0#8]) State.reset = .next t) ∧ ¬ (Instr.escape [0xC0#8]).isReset := ⟨⟨_, rfl⟩, by decide⟩

theorem witness_OperationsTouchOnlyTheirUnit :
    (∃ t, exec (.escape [0xC0#8]) State.reset = .next t) ∧ (Instr.escape [0xC0#8]).agent = some .esc ∧ Agent.esc ≠ .dec :=
  ⟨⟨_, rfl⟩, rfl, by decide⟩

theorem witness_StepsOfDifferentUnitsCommute :
    (Instr.decByte 0x20#8).agent = some .dec ∧ (Instr.encWrite [1#8]).agent = some .enc ∧ Agent.dec ≠ .enc ∧
      ∃ t u, exec (.decByte 0x20#8) (enc 5#4 .ready) = .next t ∧ exec (.encWrite [1#8]) t = .next u :=
  ⟨rfl, rfl, by decide, _, _, rfl, rfl⟩

theorem witness_OnlyResetClearsStickyFlags :
    (∃ t, exec .escEnd overflowedDec = .next t) ∧ ¬ Instr.escEnd.isReset ∧ overflowedDec.dec.ovf = true ∧
      (∃ t, exec .escEnd { enc 5#4 .error with enc := { (enc 5#4 .error).enc with err := true } } = .next t) ∧
      (∃ t, exec .escEnd (enc 5#4 .closed) = .next t) ∧ ∃ t, exec .escEnd endedDec = .next t :=
  ⟨⟨_, rfl⟩, by decide, rfl, ⟨_, rfl⟩, ⟨_, rfl⟩, ⟨_, rfl⟩⟩

/-- An encoder inside a write and a decoder that has delivered a message and buffers the next run, a payload byte presented. -/
def busy : State :=
  { enc 5#4 .inWrite with
    enc := { (enc 5#4 .inWrite).enc with out := { trace := [0xC0#8, 0x50#8, 0xDB#8, 0xDC#8], taken := 1 } }
    dec := { (dec [0x00#8, 0x41#8] true false).dec with out := { trace := [.byte 0x10#8, .byte 0x42#8, .eom], taken := 3 } }
    env := [.beat .encIn 0x0DB#10] }

theorem witness_StepKeepsTheInvariants : Inv busy ∧ ∃ t, step busy = .next t := by
  refine ⟨⟨by decide, ?_, by decide, fun _ => by unfold RegsAgree; decide, ?_, ?_, ?_, ?_, ?_, ?_⟩, ⟨_, rfl⟩⟩
  · intro c h
    cases h
  · exact ⟨[], [0xC0#8], ⟨[], [], by simp, by simp, rfl⟩, by simp, by decide⟩
  · exact ⟨[[0x10#8, 0x42#8]], by decide, by decide⟩
  all_goals (unfold TakenFits; decide)

theorem witness_EndedOrFaultedDecoderNeverEmits :
    (∃ t, exec .escEnd overflowedDec = .next t) ∧ ¬ Instr.escEnd.isReset ∧ overflowedDec.dec.ovf = true ∧ endedDec.dec.ended = true ∧
      ∃ t, exec .escEnd endedDec = .next t := ⟨⟨_, rfl⟩, by decide, rfl, rfl, ⟨_, rfl⟩⟩

theorem witness_OverflowingChunkKeepsEarlierMessages :
    (withCap State.reset 2).params.bufCap = some 2 ∧ (0x43#8 : Byte) ≠ 0xC0#8 ∧
      ∃ t, exec (.decChunk [0x10#8, 0x42#8, 0xC0#8, 0x00#8, 0x41#8]) (withCap State.reset 2) = .next t ∧ t.dec.ovf = false ∧
        2 ≤ t.dec.buf.length := ⟨rfl, by decide, _, rfl, rfl, by decide⟩

/-- A closed encoder, an ended and an overflowed decoder, presented with forms. -/
def finished (xs : List Presentation) : State := { enc 5#4 .closed with dec := endedDec.dec, env := xs }
def stopped (xs : List Presentation) : State := { overflowedDec with env := xs }

/-- R236: a token behind another unit's counts, a `RESET` before it does not let it wait, a consumer's readiness is no token. -/
theorem test_tokenWaits :
    tokenWaits encInput (finished [.beat .escIn 0#10, .beat .encIn 0x100#10]) = true ∧
      tokenWaits encInput (finished [.rst false false, .beat .encIn 0x100#10]) = false ∧
      tokenWaits decInput (finished [.take .decOut 0#10, .wire 0xC0#8]) = true ∧ tokenWaits decInput (finished [.take .decOut 0#10]) = false ∧
      tokenWaits encInput { enc 5#4 .ready with env := [.beat .encIn 0x100#10] } = false ∧
      tokenWaits encInput { enc 5#4 .inWrite with env := [.beat .encIn 0x200#10] } = true := by decide

theorem witness_WaitingTokenOrOverflowKeepsTheRunOpen :
    ((∃ t, step (finished [.beat .escIn 0#10, .beat .encIn 0#10, .beat .decIn 0#10]) = .next t) ∧
      (∀ x, (finished [.beat .escIn 0#10, .beat .encIn 0#10, .beat .decIn 0#10]).env.head? = some x → isRst x = false) ∧
      tokenWaits encInput (finished [.beat .escIn 0#10, .beat .encIn 0#10, .beat .decIn 0#10]) = true ∧
      tokenWaits decInput (finished [.beat .escIn 0#10, .beat .encIn 0#10, .beat .decIn 0#10]) = true) ∧
      (∃ t, step (stopped [.beat .escIn 0x100#10]) = .next t) ∧
      (∀ x, (stopped [.beat .escIn 0x100#10]).env.head? = some x → isRst x = false) ∧ (stopped [.beat .escIn 0x100#10]).dec.ovf = true := by
  refine ⟨⟨⟨_, rfl⟩, ?_, by decide, by decide⟩, ⟨_, rfl⟩, ?_, rfl⟩ <;>
    (intro x h; cases h; rfl)

theorem witness_RunThatIsOverStaysOver :
    (∃ t, step (finished [.beat .escIn 0#10]) = .next t) ∧
      (∀ x, (finished [.beat .escIn 0#10]).env.head? = some x → isRst x = false) ∧
      EncRunOver (finished [.beat .escIn 0#10]) ∧ DecRunOver (finished [.beat .escIn 0#10]) := by
  refine ⟨⟨_, rfl⟩, ?_, ⟨.inl rfl, rfl, by decide⟩, rfl, rfl, rfl, by decide⟩
  intro x h
  cases h
  rfl

end Sys2Proof.Tests
end

section
/-! When a step runs what is presented, and when an operation completes (00_scope.md R7, R13). For every shared operation one lemma
says under which admission test of Machine/Run.lean it completes; an operation's own case is then that lemma at its operands. -/

namespace Sys2Proof.Machine

/-! ### The step, an equation for each thing presented -/

section
variable {s : State} {x : Presentation} {rest : List Presentation}

theorem step_of_env_nil (h : s.env = []) : step s = .next s := by
  simp [step, fetch, h, idle]

theorem step_of_decode_ok {i : Instr} (h : s.env = x :: rest) (hd : decode s.dec.position x = .ok i) :
    step s = exec i { s with env := rest } := by
  simp [step, fetch, h, hd]

theorem step_of_decode_error {e : DecodeError} (h : s.env = x :: rest) (hd : decode s.dec.position x = .error e) :
    step s = rejected e := by
  simp [step, fetch, h, hd]

end

/-- Settles O6: the three cases of what is presented are the three equations of the step. -/
theorem stepRunsTheDecodedInstruction : Obligations.StepRunsTheDecodedInstruction :=
  ⟨fun _ _ _ h => ⟨fun _ hd => step_of_decode_ok h hd, fun _ hd => step_of_decode_error h hd⟩, fun _ h => step_of_env_nil h⟩

/-! ### Completion of the shared operations -/

/-- A meaning's answer is a next state exactly when the admission test holds, and it is never a refusal (R13 (a), (c)). -/
def CompletesExactlyWhen (r : Result) (admitted : Bool) : Prop :=
  ((∃ t, r = .next t) ↔ admitted = true) ∧ ∀ ρ, r ≠ .refused ρ

theorem completesExactlyWhen_next (t : State) : CompletesExactlyWhen (.next t) true :=
  ⟨by simp, nofun⟩

theorem completesExactlyWhen_fault (f : Fault) : CompletesExactlyWhen (.fault f) false :=
  ⟨by simp, nofun⟩

/-- Every decoder operation and wire row, whatever it computes (R180). -/
theorem whenDecAdmits_completes (s t : State) : CompletesExactlyWhen (whenDecAdmits s t) (decAdmits s) := by
  refine ⟨by simp [whenDecAdmits_next, decAdmits], fun ρ => ?_⟩
  unfold whenDecAdmits
  split <;> nofun

/-- Shutdown at both levels (R140, R144). -/
theorem encFinish_completes (s : State) : CompletesExactlyWhen (encFinish s) (s.enc.st == .ready) := by
  refine ⟨by simp [encFinish_next], fun ρ => ?_⟩
  unfold encFinish
  split <;> nofun

theorem execEncWrite_completes (p : List Byte) (s : State) :
    CompletesExactlyWhen (execEncWrite p s) (s.enc.st == .ready) := by
  refine ⟨by simp [execEncWrite_next], fun ρ => ?_⟩
  unfold execEncWrite
  split <;> nofun

theorem execEncByte_completes (b : Byte) (s : State) :
    CompletesExactlyWhen (execEncByte b s) (s.enc.st == .ready || s.enc.st == .inWrite) := by
  refine ⟨by simp [execEncByte_next, exists_or], fun ρ => ?_⟩
  unfold execEncByte
  split <;> nofun

theorem execEncEow_completes (s : State) :
    CompletesExactlyWhen (execEncEow s) (s.enc.st == .ready || s.enc.st == .inWrite) := by
  refine ⟨by simp [execEncEow_next, exists_or], fun ρ => ?_⟩
  unfold execEncEow
  split <;> nofun

/-- `ConfigError` is a completion: without a valid port the ranges of R149 are not tested (R131, R199 (f)). -/
theorem execEncOpen_completes (cfg : EncCfg) (s : State) : CompletesExactlyWhen (execEncOpen cfg s) (openAdmits cfg s) := by
  constructor
  · cases hp : validPort cfg.port with
    | none => simp [execEncOpen_next, openAdmits, hp]
    | some port => simp [execEncOpen_next, openAdmits, hp]
  · intro ρ
    unfold execEncOpen
    repeat' split
    all_goals nofun

theorem execUnescape_completes (w : List Byte) (s : State) : CompletesExactlyWhen (execUnescape w s) (!s.unesc.pend) := by
  refine ⟨by simp [execUnescape_next], fun ρ => ?_⟩
  unfold execUnescape
  split <;> nofun

/-! A consumer takes a token exactly when its channel offers it (R65). -/

theorem takeEsc_completes (x : EscToken) (s : State) : CompletesExactlyWhen (takeEsc x s) (s.esc.out.offered == some x) := by
  refine ⟨by simp [takeEsc_next], fun ρ => ?_⟩
  unfold takeEsc
  split <;> nofun

theorem takeUnesc_completes (x : EscToken) (s : State) :
    CompletesExactlyWhen (takeUnesc x s) (s.unesc.out.offered == some x) := by
  refine ⟨by simp [takeUnesc_next], fun ρ => ?_⟩
  unfold takeUnesc
  split <;> nofun

theorem takeEnc_completes (x : Byte) (s : State) : CompletesExactlyWhen (takeEnc x s) (s.enc.out.offered == some x) := by
  refine ⟨by simp [takeEnc_next], fun ρ => ?_⟩
  unfold takeEnc
  split <;> nofun

theorem takeDec_completes (x : DecToken) (s : State) : CompletesExactlyWhen (takeDec x s) (s.dec.out.offered == some x) := by
  refine ⟨by simp [takeDec_next], fun ρ => ?_⟩
  unfold takeDec
  split <;> nofun

/-! ### Completion of every operation -/

/-- Every row is one of the shared operations at its own operands, or completes always (R114 to R120, R220), or never (R99). -/
theorem exec_completes (i : Instr) (s : State) : CompletesExactlyWhen (exec i s) (admits i s) := by
  cases i with
  | mark | esc | escMark | escEsc | escBad | lit | cmd | data | txDelay | persist | slotTime | txTail | fullDup | setHw
  | reservedKind7 | reservedKind8 | reservedKind9 | reservedKind10 | reservedKind11 | reservedKind12 | reservedKind13
  | reservedKind14 | exit | kindFOtherPort | decChunk | decEnd | decByte | decCend | decEos =>
    exact whenDecAdmits_completes s _
  | escape | escByte | escEnd | unescByte | unescEnd | reset => exact completesExactlyWhen_next _
  | reservedBeat11 => exact completesExactlyWhen_fault _
  | unescape w => exact execUnescape_completes w s
  | encOpen cfg => exact execEncOpen_completes cfg s
  | encWrite p => exact execEncWrite_completes p s
  | encByte b => exact execEncByte_completes b s
  | encEow => exact execEncEow_completes s
  | encClose | encEos => exact encFinish_completes s
  | outByte ch b =>
    cases ch with
    | escOut => exact takeEsc_completes (.byte b) s
    | unescOut => exact takeUnesc_completes (.byte b) s
    | encOut => exact takeEnc_completes b s
    | decOut => exact takeDec_completes (.byte b) s
  | outEnd ch =>
    cases ch with
    | escOut => exact takeEsc_completes .close s
    | unescOut => exact takeUnesc_completes .close s
  | outEom => exact takeDec_completes .eom s
  | outHdr p => exact takeDec_completes (.hdr p) s

/-- Settles O8, by the completion of every operation. -/
theorem execCompletesExactlyWhenAdmitted : Obligations.ExecCompletesExactlyWhenAdmitted := exec_completes

end Sys2Proof.Machine
end

section
/-! What a completing operation can do (00_scope.md R7; 20_memory.md R62): a step relation for each unit, and one lemma saying that every
operation is a step of the unit it belongs to, or the reset. Statements about every operation other than `RESET` are then case
analyses over a unit's steps, not over the operations. -/

namespace Sys2Proof.Machine

/-! ### The steps of the units -/

/-- An output channel gains tokens, or its consumer takes the one offered (R33, R65). -/
inductive OutStep {α : Type} (o : Out α) : Out α → Prop
  | emit (ts : List α) : OutStep o (o.emit ts)
  | take {x : α} (offered : o.offered = some x) : OutStep o o.advance

/-- The transitions of the encoder (R131 to R145). An empty write is `write []` at both levels. -/
inductive EncStep (initOrder : List OptField) (e : Enc) : Enc → Prop
  | fail (st : e.st = .unconf) : EncStep initOrder e { e with st := .error, err := true }
  | construct (port : Nibble) (cfg : EncCfg) (st : e.st = .unconf) :
      EncStep initOrder e
        { e with
          st := .ready
          port := port
          cmd := cmdRegsOf port
          pre := frameStartOf port
          out := e.out.emit (initFrames initOrder (cmdRegsOf port) cfg) }
  | write (p : List Byte) (st : e.st = .ready) : EncStep initOrder e { e with out := e.out.emit (e.dataFrame p) }
  | openFrame (b : Byte) (st : e.st = .ready) :
      EncStep initOrder e { e with st := .inWrite, out := e.out.emit (e.pre.bytes ++ esc1 b) }
  | payloadByte (b : Byte) (st : e.st = .inWrite) : EncStep initOrder e { e with out := e.out.emit (esc1 b) }
  | closeFrame (st : e.st = .inWrite) : EncStep initOrder e { e with st := .ready, out := e.out.emit [e.endm] }
  | shutdown (st : e.st = .ready) : EncStep initOrder e { e with st := .closed, out := e.out.emit exitFrame }
  | take {x : Byte} (offered : e.out.offered = some x) : EncStep initOrder e { e with out := e.out.advance }

/-- Closing some runs, each emitted as its message, and buffering a content (R161, R170). -/
def Dec.closeRuns (d : Dec) (runs : List (List Byte)) (buf : List Byte) : Dec :=
  { d with buf := buf, out := d.out.emit (runs.flatMap (message d.ecb d.eob)) }

/-- From a buffer within its limits, the runs closed are runs of R179, not empty and without `MARK`, and what is buffered after them is
within the limits again. -/
def ClosesRuns (bufCap : Option Nat) (buf : List Byte) (runs : List (List Byte)) (buf' : List Byte) : Prop :=
  BufOk bufCap buf → (∀ r ∈ runs, r ≠ [] ∧ Wire.MARK ∉ r) ∧ BufOk bufCap buf'

/-- The transitions of the decoder (R161 to R173, R195): intake, intake up to an overflow, the end of the stream; each only while the
decoder admits (R180). -/
inductive DecStep (bufCap : Option Nat) (d : Dec) : Dec → Prop
  | intake (runs : List (List Byte)) (buf : List Byte) (ended : d.ended = false) (ovf : d.ovf = false)
      (closes : ClosesRuns bufCap d.buf runs buf) : DecStep bufCap d (d.closeRuns runs buf)
  | overflow (runs : List (List Byte)) (draw : Nat) (ended : d.ended = false) (ovf : d.ovf = false)
      (closes : ClosesRuns bufCap d.buf runs (overflowedBuf bufCap draw)) :
      DecStep bufCap d { d.closeRuns runs (overflowedBuf bufCap draw) with ovf := true }
  | finish (runs : List (List Byte)) (buf : List Byte) (ended : d.ended = false) (ovf : d.ovf = false)
      (closes : ClosesRuns bufCap d.buf runs buf) : DecStep bufCap d { d.closeRuns runs buf with ended := true }
  | take {x : DecToken} (offered : d.out.offered = some x) : DecStep bufCap d { d with out := d.out.advance }

/-- A step of one unit, by the agent it belongs to, with everything else of the block as it was (R62, R200), but the model's own counter;
or the reset of all four units (R220). -/
inductive BlockStep (s : State) : Option Agent → State → Prop
  | esc {o : Out EscToken} (step : OutStep s.esc.out o) : BlockStep s (some .esc) { s with esc := { out := o } }
  | unesc {o : Out EscToken} (pend : Bool) (step : OutStep s.unesc.out o) :
      BlockStep s (some .unesc) { s with unesc := { pend := pend, out := o } }
  | enc {e : Enc} (step : EncStep s.params.initOrder s.enc e) : BlockStep s (some .enc) { s with enc := e }
  | dec {d : Dec} (free : Nat) (step : DecStep s.params.bufCap s.dec d) :
      BlockStep s (some .dec) { s with dec := d, free := free }
  | reset (ecb eob : Bool) : BlockStep s none (s.resetBlock ecb eob)

/-! ### The decoder's intake closes runs -/

theorem closesRuns_none {bufCap : Option Nat} {buf buf' : List Byte} (h : BufOk bufCap buf → BufOk bufCap buf') :
    ClosesRuns bufCap buf [] buf' := fun hb => ⟨by simp, h hb⟩

/-- One run closed, then what closes from the empty buffer. -/
theorem ClosesRuns.cons {bufCap : Option Nat} {buf buf' : List Byte} {runs : List (List Byte)} (hne : buf ≠ [])
    (h : ClosesRuns bufCap [] runs buf') : ClosesRuns bufCap buf (buf :: runs) buf' := by
  intro hb
  obtain ⟨hruns, hbuf⟩ := h (bufOk_nil bufCap)
  exact ⟨List.forall_mem_cons.2 ⟨⟨hne, hb.1⟩, hruns⟩, hbuf⟩

theorem ClosesRuns.overflow {bufCap : Option Nat} {buf buf' : List Byte} {runs : List (List Byte)} (draw : Nat)
    (h : ClosesRuns bufCap buf runs buf') : ClosesRuns bufCap buf runs (overflowedBuf bufCap draw) :=
  fun hb => ⟨(h hb).1, bufOk_overflowedBuf bufCap draw⟩

@[simp] theorem Dec.closeRuns_none (d : Dec) : d.closeRuns [] d.buf = d := by simp [Dec.closeRuns]

/-- A boundary closes the buffered run, if there is one (R170, R193). -/
theorem State.closeRun_closesRuns (s : State) :
    ∃ runs buf, ClosesRuns s.params.bufCap s.dec.buf runs buf ∧ s.closeRun = { s with dec := s.dec.closeRuns runs buf } := by
  rcases s.closeRun_cases with ⟨-, e⟩ | ⟨hne, e⟩
  · exact ⟨[], s.dec.buf, closesRuns_none id, by simp [e]⟩
  · exact ⟨[s.dec.buf], [], (closesRuns_none id).cons hne, by simp [e, Dec.closeRuns, State.emitDec, State.setBuf]⟩

/-! The fitting part of a chunk and its scan, an equation for each kind of next byte (R163, R176). -/

section
variable {bufCap : Option Nat} {fill : Nat} {b : Byte} (c : List Byte)

theorem chunkFitting_mark : (chunkFitting bufCap fill (Wire.MARK :: c)).1 = Wire.MARK :: (chunkFitting bufCap 0 c).1 := by
  simp [chunkFitting]

theorem chunkFitting_fits (hb : b ≠ Wire.MARK) (hf : fits bufCap fill = true) :
    (chunkFitting bufCap fill (b :: c)).1 = b :: (chunkFitting bufCap (fill + 1) c).1 := by
  simp [chunkFitting, hb, hf]

theorem chunkFitting_full (hb : b ≠ Wire.MARK) (hf : fits bufCap fill = false) :
    (chunkFitting bufCap fill (b :: c)).1 = [] := by
  simp [chunkFitting, hb, hf]

/-- A boundary is always fitting, so the fitting part begins with one exactly when the chunk does. -/
theorem chunkFitting_head?_mark (bufCap : Option Nat) (fill : Nat) :
    (chunkFitting bufCap fill c).1.head? = some Wire.MARK ↔ c.head? = some Wire.MARK := by
  cases c with
  | nil => rfl
  | cons b c =>
    by_cases hb : b = Wire.MARK
    · simp [hb, chunkFitting_mark]
    · cases hf : fits bufCap fill with
      | false => simp [chunkFitting_full c hb hf, hb]
      | true => simp [chunkFitting_fits c hb hf]

variable (buf : List Byte) {run : List Byte}

theorem chunkStep2_mark_empty : chunkStep2 buf [] (Wire.MARK :: c) = chunkStep2 buf [] c := by
  simp [chunkStep2]

theorem chunkStep2_mark (hr : run ≠ []) : chunkStep2 buf run (Wire.MARK :: c) =
    ((buf ++ run) :: (chunkStep2 [] [] c).1, (chunkStep2 [] [] c).2) := by
  simp [chunkStep2, hr]

theorem chunkStep2_content (run : List Byte) (hb : b ≠ Wire.MARK) :
    chunkStep2 buf run (b :: c) = chunkStep2 buf (run ++ [b]) c := by
  simp [chunkStep2, hb]

end

/-- The scan of the fitting part of a chunk (R163). A buffer behind an empty candidate run stands only before a byte that is no
boundary, since step 1 has closed it otherwise. -/
theorem chunkStep2_closesRuns (bufCap : Option Nat) (c buf run : List Byte)
    (hstart : run = [] → c.head? = some Wire.MARK → buf = []) :
    let scan := chunkStep2 buf run (chunkFitting bufCap (buf ++ run).length c).1
    ClosesRuns bufCap (buf ++ run) scan.1 (scan.2.1 ++ scan.2.2) := by
  induction c generalizing buf run with
  | nil => exact closesRuns_none id
  | cons b c ih =>
    by_cases hb : b = Wire.MARK
    · subst hb
      have rest := ih [] [] (fun _ _ => rfl)
      rw [chunkFitting_mark]
      by_cases hr : run = []
      · subst hr
        rw [hstart rfl rfl, chunkStep2_mark_empty]
        exact rest
      · rw [chunkStep2_mark _ _ hr]
        exact rest.cons (by simp [hr])
    · cases hf : fits bufCap (buf ++ run).length with
      | false =>
        rw [chunkFitting_full c hb hf]
        exact closesRuns_none id
      | true =>
        rw [chunkFitting_fits c hb hf, chunkStep2_content _ _ _ hb]
        have rest := ih buf (run ++ [b]) (by simp)
        rw [← List.append_assoc, List.length_append] at rest
        exact fun hok => rest (bufOk_append hok hb hf)

/-- Step 1 of R161 clears the buffer before a boundary, so the scan of the fitting part may begin. -/
theorem chunkRuns_closesRuns (bufCap : Option Nat) (buf c : List Byte) :
    let closed := chunkRuns buf (chunkFitting bufCap buf.length c).1
    ClosesRuns bufCap buf closed.1 closed.2 := by
  by_cases h : c.head? = some Wire.MARK ∧ buf ≠ []
  · obtain ⟨hc, hne⟩ := h
    obtain ⟨c, rfl⟩ := List.head?_eq_some_iff.1 hc
    have scan := chunkStep2_closesRuns bufCap (Wire.MARK :: c) [] [] (fun _ _ => rfl)
    rw [chunkFitting_mark] at scan ⊢
    simpa [chunkRuns, chunkStep1, hne] using scan.cons hne
  · have scan := chunkStep2_closesRuns bufCap c buf [] (fun _ hc => by_contra fun hne => h ⟨hc, hne⟩)
    rw [← chunkFitting_head?_mark c bufCap buf.length] at h
    simpa [chunkRuns, chunkStep1, h] using scan

/-! ### Every operation is a step of its unit, or the reset -/

section
variable {s t : State}

theorem decIntake_blockStep {b : Byte} (h : decIntake b s = .next t) : BlockStep s (some .dec) t := by
  obtain ⟨he, ho, rfl⟩ := decIntake_next.1 h
  rcases s.takeByte_cases b with ⟨-, e⟩ | ⟨hb, hf, e⟩ | ⟨-, -, e⟩
  · obtain ⟨runs, buf, hc, e'⟩ := s.closeRun_closesRuns
    rw [e, e']
    exact .dec s.free (.intake runs buf he ho hc)
  · have := BlockStep.dec s.free (.intake [] (s.dec.buf ++ [b]) he ho (closesRuns_none fun hok => bufOk_append hok hb hf))
    simpa [e, Dec.closeRuns, State.bufAppend, State.setBuf] using this
  · have := BlockStep.dec (s.free + 1) (.overflow [] s.free he ho ((closesRuns_none id).overflow s.free))
    simpa [e, Dec.closeRuns, State.raiseBufOverflow] using this

theorem decFinish_blockStep (h : decFinish s = .next t) : BlockStep s (some .dec) t := by
  obtain ⟨he, ho, rfl⟩ := decFinish_next.1 h
  obtain ⟨runs, buf, hc, e⟩ := s.closeRun_closesRuns
  rw [e]
  exact .dec s.free (.finish runs buf he ho hc)

theorem execDecChunk_blockStep {c : List Byte} (h : execDecChunk c s = .next t) : BlockStep s (some .dec) t := by
  obtain ⟨he, ho, rfl⟩ := (whenDecAdmits_next _ _ _).1 h
  have hc := chunkRuns_closesRuns s.params.bufCap s.dec.buf c
  rcases s.takeChunk_cases c with ⟨-, e⟩ | ⟨-, e⟩ <;> rw [e]
  · exact .dec s.free (.intake _ _ he ho hc)
  · exact .dec (s.free + 1) (.overflow _ s.free he ho (hc.overflow s.free))

theorem execDecCend_blockStep (h : execDecCend s = .next t) : BlockStep s (some .dec) t := by
  obtain ⟨he, ho, rfl⟩ := (whenDecAdmits_next _ _ _).1 h
  have := BlockStep.dec t.free (.intake [] t.dec.buf he ho (closesRuns_none id))
  rwa [Dec.closeRuns_none] at this

theorem execEncOpen_blockStep {cfg : EncCfg} (h : execEncOpen cfg s = .next t) : BlockStep s (some .enc) t := by
  obtain ⟨hst, ⟨-, rfl⟩ | ⟨port, -, -, -, rfl⟩⟩ := execEncOpen_next.1 h
  · exact .enc (.fail hst)
  · exact .enc (.construct port cfg hst)

theorem execEncByte_blockStep {b : Byte} (h : execEncByte b s = .next t) : BlockStep s (some .enc) t := by
  obtain ⟨hst, rfl⟩ | ⟨hst, rfl⟩ := execEncByte_next.1 h
  · exact .enc (.openFrame b hst)
  · exact .enc (.payloadByte b hst)

theorem execEncEow_blockStep (h : execEncEow s = .next t) : BlockStep s (some .enc) t := by
  obtain ⟨hst, rfl⟩ | ⟨hst, rfl⟩ := execEncEow_next.1 h
  · exact .enc (.write [] hst)
  · exact .enc (.closeFrame hst)

theorem execEncWrite_blockStep {p : List Byte} (h : execEncWrite p s = .next t) : BlockStep s (some .enc) t := by
  obtain ⟨hst, rfl⟩ := execEncWrite_next.1 h
  exact .enc (.write p hst)

theorem encFinish_blockStep (h : encFinish s = .next t) : BlockStep s (some .enc) t := by
  obtain ⟨hst, rfl⟩ := encFinish_next.1 h
  exact .enc (.shutdown hst)

theorem execUnescape_blockStep {w : List Byte} (h : execUnescape w s = .next t) : BlockStep s (some .unesc) t := by
  obtain ⟨-, rfl⟩ := execUnescape_next.1 h
  exact .unesc false (.emit _)

theorem takeEsc_blockStep {x : EscToken} (h : takeEsc x s = .next t) : BlockStep s (some .esc) t := by
  obtain ⟨ho, rfl⟩ := takeEsc_next.1 h
  exact .esc (.take ho)

theorem takeUnesc_blockStep {x : EscToken} (h : takeUnesc x s = .next t) : BlockStep s (some .unesc) t := by
  obtain ⟨ho, rfl⟩ := takeUnesc_next.1 h
  exact .unesc _ (.take ho)

theorem takeEnc_blockStep {x : Byte} (h : takeEnc x s = .next t) : BlockStep s (some .enc) t := by
  obtain ⟨ho, rfl⟩ := takeEnc_next.1 h
  exact .enc (.take ho)

theorem takeDec_blockStep {x : DecToken} (h : takeDec x s = .next t) : BlockStep s (some .dec) t := by
  obtain ⟨ho, rfl⟩ := takeDec_next.1 h
  exact .dec s.free (.take ho)

/-- What a completing operation does is a step of its own unit, or the reset. -/
theorem exec_blockStep {i : Instr} (h : exec i s = .next t) : BlockStep s i.agent t := by
  cases i with
  | mark | esc | escMark | escEsc | escBad | lit | cmd | data | txDelay | persist | slotTime | txTail | fullDup | setHw
  | reservedKind7 | reservedKind8 | reservedKind9 | reservedKind10 | reservedKind11 | reservedKind12 | reservedKind13
  | reservedKind14 | exit | kindFOtherPort | decByte => exact decIntake_blockStep h
  | decEnd | decEos => exact decFinish_blockStep h
  | decChunk => exact execDecChunk_blockStep h
  | decCend => exact execDecCend_blockStep h
  | escape | escByte | escEnd => cases h; exact .esc (.emit _)
  | unescByte | unescEnd => cases h; exact .unesc _ (.emit _)
  | unescape => exact execUnescape_blockStep h
  | encOpen => exact execEncOpen_blockStep h
  | encWrite => exact execEncWrite_blockStep h
  | encByte => exact execEncByte_blockStep h
  | encEow => exact execEncEow_blockStep h
  | encClose | encEos => exact encFinish_blockStep h
  | reset ecb eob => cases h; exact .reset ecb eob
  | reservedBeat11 => cases h
  | outByte ch =>
    cases ch with
    | escOut => exact takeEsc_blockStep h
    | unescOut => exact takeUnesc_blockStep h
    | encOut => exact takeEnc_blockStep h
    | decOut => exact takeDec_blockStep h
  | outEnd ch =>
    cases ch with
    | escOut => exact takeEsc_blockStep h
    | unescOut => exact takeUnesc_blockStep h
  | outEom | outHdr => exact takeDec_blockStep h

end

end Sys2Proof.Machine
end

section
/-! Safety of every operation but `RESET` (10_state.md R33, R36, R37, R40 I7 and I8; 60_exceptions.md R201): what each unit's steps keep,
and from it what an operation keeps. -/

namespace Sys2Proof.Machine

/-! ### The units under an operation that is not `RESET` -/

section
variable {α : Type} {o o' : Out α}

theorem OutStep.refl (o : Out α) : OutStep o o := by simpa using OutStep.emit (o := o) []

theorem OutStep.trace_prefix (h : OutStep o o') : o.trace <+: o'.trace := by
  cases h with
  | emit ts => exact ⟨ts, rfl⟩
  | take _ => exact List.prefix_refl _

theorem OutStep.taken_le (h : OutStep o o') : o.taken ≤ o'.taken := by
  cases h with
  | emit ts => exact le_refl _
  | take _ => exact Nat.le_succ _

end

theorem EncStep.out {initOrder : List OptField} {e e' : Enc} (h : EncStep initOrder e e') : OutStep e.out e'.out := by
  cases h with
  | fail => exact .refl _
  | take offered => exact .take offered
  | construct | write | openFrame | payloadByte | closeFrame | shutdown => exact .emit _

theorem DecStep.out {bufCap : Option Nat} {d d' : Dec} (h : DecStep bufCap d d') : OutStep d.out d'.out := by
  cases h with
  | intake | overflow | finish => exact .emit _
  | take offered => exact .take offered

/-- An operation other than `RESET` is a step of one unit. -/
theorem exec_unitStep {i : Instr} {s t : State} (h : exec i s = .next t) (hr : ¬ i.isReset) :
    ∃ a : Agent, BlockStep s (some a) t := by
  obtain ⟨a, ha⟩ := Option.ne_none_iff_exists'.1 hr
  exact ⟨a, ha ▸ exec_blockStep h⟩

section
variable {s t : State} {a : Agent} (h : BlockStep s (some a) t)
include h

theorem BlockStep.encStep : t.enc = s.enc ∨ EncStep s.params.initOrder s.enc t.enc := by
  cases h with
  | enc step => exact .inr step
  | esc | unesc | dec => exact .inl rfl

theorem BlockStep.decStep : t.dec = s.dec ∨ DecStep s.params.bufCap s.dec t.dec := by
  cases h with
  | dec _ step => exact .inr step
  | esc | unesc | enc => exact .inl rfl

/-- Each of the four channels makes a step, of no token where the unit is another's. -/
theorem BlockStep.outSteps :
    OutStep s.esc.out t.esc.out ∧ OutStep s.unesc.out t.unesc.out ∧ OutStep s.enc.out t.enc.out ∧
      OutStep s.dec.out t.dec.out := by
  cases h with
  | esc step => exact ⟨step, .refl _, .refl _, .refl _⟩
  | unesc _ step => exact ⟨.refl _, step, .refl _, .refl _⟩
  | enc step => exact ⟨.refl _, .refl _, step.out, .refl _⟩
  | dec _ step => exact ⟨.refl _, .refl _, .refl _, step.out⟩

end

/-- Settles O48: every channel makes a step, and a channel's step only grows it. -/
theorem tracesOnlyGrow : Obligations.TracesOnlyGrow := by
  intro i s t h hr
  obtain ⟨_, step⟩ := exec_unitStep h hr
  obtain ⟨hesc, hunesc, henc, hdec⟩ := step.outSteps
  exact ⟨⟨hesc.trace_prefix, hunesc.trace_prefix, henc.trace_prefix, hdec.trace_prefix⟩,
    hesc.taken_le, hunesc.taken_le, henc.taken_le, hdec.taken_le⟩

/-! ### The encoder: shut down or failed, and its configuration -/

/-- In `CLOSED` and `ERROR` the consumer's transfer is the one step left (R141, R191). -/
theorem EncStep.of_closed_or_error {initOrder : List OptField} {e e' : Enc} (h : EncStep initOrder e e')
    (hst : e.st = .closed ∨ e.st = .error) : e' = { e with out := e.out.advance } := by
  cases h with
  | take => rfl
  | fail st | construct _ _ st | write _ st | openFrame _ st | payloadByte _ st | closeFrame st | shutdown st =>
    simp [st] at hst

/-- The port-derived registers are written by the construction only (R36). -/
theorem EncStep.regs {initOrder : List OptField} {e e' : Enc} (h : EncStep initOrder e e') (hst : e.st ≠ .unconf) :
    e'.port = e.port ∧ e'.cmd = e.cmd ∧ e'.pre = e.pre := by
  cases h with
  | construct _ _ st => exact absurd st hst
  | fail | write | openFrame | payloadByte | closeFrame | shutdown | take => exact ⟨rfl, rfl, rfl⟩

/-- No transition clears `ENC.err` (R201). -/
theorem EncStep.err {initOrder : List OptField} {e e' : Enc} (h : EncStep initOrder e e') (herr : e.err = true) :
    e'.err = true := by
  cases h with
  | fail => rfl
  | construct | write | openFrame | payloadByte | closeFrame | shutdown | take => exact herr

/-- Settles O30: the encoder stays as it is, or makes the one step left to it. -/
theorem closedOrFailedEncoderNeverEmits : Obligations.ClosedOrFailedEncoderNeverEmits := by
  intro i s t h hr hst
  obtain ⟨_, step⟩ := exec_unitStep h hr
  rcases step.encStep with e | step
  · simp [e]
  · simp [step.of_closed_or_error hst]

/-! ### The decoder: ended or overflowed, and its mode -/

/-- The mode bits are written by reset only (R36). -/
theorem DecStep.mode {bufCap : Option Nat} {d d' : Dec} (h : DecStep bufCap d d') : d'.ecb = d.ecb ∧ d'.eob = d.eob := by
  cases h with
  | intake | overflow | finish | take => exact ⟨rfl, rfl⟩

/-- Ended or overflowed, the consumer's transfer is the one step left (R180). -/
theorem DecStep.of_ended_or_ovf {bufCap : Option Nat} {d d' : Dec} (h : DecStep bufCap d d')
    (hd : d.ended = true ∨ d.ovf = true) : d' = { d with out := d.out.advance } := by
  cases h with
  | take => rfl
  | intake _ _ ended ovf | overflow _ _ ended ovf | finish _ _ ended ovf => simp [ended, ovf] at hd

/-- Settles O56: the decoder stays as it is, or makes the one step left to it. -/
theorem endedOrFaultedDecoderNeverEmits : Obligations.EndedOrFaultedDecoderNeverEmits := by
  intro i s t h hr hd
  obtain ⟨_, step⟩ := exec_unitStep h hr
  rcases step.decStep with e | step
  · simp [e]
  · simp [step.of_ended_or_ovf hd]

/-- Settles O31: only the construction writes the port-derived registers, and no step of the decoder its mode. -/
theorem configurationIsImmutableUntilReset : Obligations.ConfigurationIsImmutableUntilReset := by
  intro i s t h hr
  obtain ⟨_, step⟩ := exec_unitStep h hr
  constructor
  · intro hst
    rcases step.encStep with e | step
    · simp [e]
    · exact step.regs hst
  · rcases step.decStep with e | step
    · simp [e]
    · exact step.mode

/-- Settles O51: an ended, overflowed, closed or failed unit has one step left, which changes its channel only, and no transition of the
encoder clears its flag. -/
theorem onlyResetClearsStickyFlags : Obligations.OnlyResetClearsStickyFlags := by
  intro i s t h hr
  obtain ⟨_, step⟩ := exec_unitStep h hr
  have henc : s.enc.st = .closed ∨ s.enc.st = .error → t.enc.st = s.enc.st := fun hst =>
    (closedOrFailedEncoderNeverEmits i s t h hr hst).1
  have hdec (hd : s.dec.ended = true ∨ s.dec.ovf = true) : t.dec.ended = s.dec.ended ∧ t.dec.ovf = s.dec.ovf := by
    rcases step.decStep with e | step
    · simp [e]
    · simp [step.of_ended_or_ovf hd]
  refine ⟨fun herr => ?_, fun hovf => (hdec (.inr hovf)).2.trans hovf, fun hend => (hdec (.inl hend)).1.trans hend,
    fun hst => (henc (.inr hst)).trans hst, fun hst => (henc (.inl hst)).trans hst⟩
  rcases step.encStep with e | step
  · rwa [e]
  · exact step.err herr

end Sys2Proof.Machine
end

section
/-! The invariants of the block (10_state.md R40; 30_encoding.md R81; 42_decoder.md R179): the construction, what the encoder's and the
decoder's transitions keep, reset, and the step. -/

namespace Sys2Proof.Machine

open Safety

/-! ### Command bytes and the port-derived registers -/

theorem cmdByte_toNat (port kind : Nibble) : (cmdByte port kind).toNat = 16 * port.toNat + kind.toNat := by
  revert port kind; decide

/-- `ENC.cmd[k] = 16 * port + k` (R25). -/
theorem cmdRegsOf_get_toNat (port : Nibble) (k : Fin 7) : ((cmdRegsOf port).get k).toNat = 16 * port.toNat + k.val := by
  revert port k; decide

/-- Registers that agree with the port start a data frame as R82 says. -/
theorem pre_bytes_of_regsAgree {e : Enc} (h : RegsAgree e) : e.pre.bytes = [Wire.MARK, cmdByte e.port 0#4] := by
  obtain ⟨-, hmarker, hcommand⟩ := h
  have hcmd : e.pre.command = cmdByte e.port 0#4 := BitVec.eq_of_toNat_eq (by simpa [cmdByte_toNat] using hcommand)
  simp [FrameStart.bytes, hmarker, hcmd]

/-! ### A successful construction -/

theorem validPort_of_le {v : Byte} (h : v.toNat ≤ 15) : validPort (some v) = some (v.setWidth 4) := by
  simp [validPort, h]

theorem timeFits_of_forall_le {field : Option Millis} (h : ∀ ms, field = some ms → ms.toNat ≤ 2559) : timeFits field = true := by
  cases field with
  | none => rfl
  | some ms => simpa [timeFits] using h ms rfl

theorem hwFits_of_forall_le {hwMax : Option Nat} {cfg : EncCfg}
    (h : ∀ m hw, hwMax = some m → cfg.hw = some hw → hw.length ≤ m) : hwFits hwMax cfg = true := by
  unfold hwFits
  split
  · next m hw hcfg => simpa using h m hw rfl hcfg
  · rfl
  · rfl

/-- Settles O22: with the port and every field in range, what `ENC.OPEN` answers is the construction. -/
theorem openWithValidPortConstructs : Obligations.OpenWithValidPortConstructs := by
  intro cfg v s hst hport hv htimes hhw
  have hfit : timesFit cfg = true := by
    simp [timesFit, timeFits_of_forall_le fun ms h => htimes ms (.inl h),
      timeFits_of_forall_le fun ms h => htimes ms (.inr (.inl h)), timeFits_of_forall_le fun ms h => htimes ms (.inr (.inr h))]
  have hrun : exec (.encOpen cfg) s = .next (s.construct (v.setWidth 4) cfg) :=
    execEncOpen_next.2 ⟨hst, .inr ⟨_, hport ▸ validPort_of_le hv, hfit, hwFits_of_forall_le hhw, rfl⟩⟩
  have hnat : (v.setWidth 4).toNat = v.toNat := by simp; omega
  exact ⟨_, hrun, rfl, hnat, fun k => hnat ▸ cmdRegsOf_get_toNat _ k, rfl, rfl, rfl, rfl, rfl⟩

/-! ### The wire grammar of R81 -/

theorem isOpenStream_append_dataFrame {port : Nibble} {w : List Byte} (h : IsOpenStream port w) (payload : List Byte) :
    IsOpenStream port (w ++ ([Wire.MARK, cmdByte port 0#4] ++ escape payload ++ [Wire.MARK])) := by
  obtain ⟨inits, frames, hinits, hframes, rfl⟩ := h
  refine ⟨inits, frames ++ [[Wire.MARK, cmdByte port 0#4] ++ escape payload ++ [Wire.MARK]], hinits, ?_, by simp⟩
  exact List.forall_mem_append.2 ⟨hframes, List.forall_mem_singleton.2 ⟨payload, rfl⟩⟩

/-- A frame of one of the kinds 1 to 6, or none. -/
theorem fieldFrame_isInitFrame {port kind : Nibble} (hlo : 1 ≤ kind.toNat) (hhi : kind.toNat ≤ 6) (value : Option (List Byte)) :
    fieldFrame (cmdByte port kind) value = [] ∨ IsInitFrame port (fieldFrame (cmdByte port kind) value) := by
  cases value with
  | none => exact .inl rfl
  | some value => exact .inr ⟨kind, value, hlo, hhi, rfl⟩

theorem initFrame_isInitFrame (port : Nibble) (cfg : EncCfg) (f : OptField) :
    initFrame (cmdRegsOf port) cfg f = [] ∨ IsInitFrame port (initFrame (cmdRegsOf port) cfg f) := by
  cases f with
  | fd | hw | pers | slot | txd | txt => exact fieldFrame_isInitFrame (by decide) (by decide) _

/-- What a construction emits is a stream of initialisation frames, whatever `INIT_ORDER` is. -/
theorem initFrames_isOpenStream (order : List OptField) (port : Nibble) (cfg : EncCfg) :
    IsOpenStream port (initFrames order (cmdRegsOf port) cfg) := by
  refine ⟨(order.map (initFrame (cmdRegsOf port) cfg)).filter (!·.isEmpty), [], ?_, by simp, ?_⟩
  · intro f hf
    obtain ⟨hmem, hne⟩ := List.mem_filter.1 hf
    obtain ⟨field, -, rfl⟩ := List.mem_map.1 hmem
    exact (initFrame_isInitFrame port cfg field).resolve_left (by simpa using hne)
  · simpa [initFrames, List.flatMap] using List.flatten_filter_not_isEmpty.symm

theorem escape_append_singleton (p : List Byte) (b : Byte) : escape (p ++ [b]) = escape p ++ esc1 b := by
  simp [escape]

/-! ### The invariants of the encoder -/

/-- R40 I4 to I7 of the encoder. -/
structure EncOk (e : Enc) : Prop where
  errIff : e.err = true ↔ e.st = .error
  regs : e.st = .ready ∨ e.st = .inWrite ∨ e.st = .closed → RegsAgree e
  wire : WireOut e

/-! What ENC.out holds, an equivalence for each state that emits. -/

theorem wireOut_unconf {e : Enc} (st : e.st = .unconf) : WireOut e ↔ e.out.trace = [] := by simp [WireOut, st]

theorem wireOut_error {e : Enc} (st : e.st = .error) : WireOut e ↔ e.out.trace = [] := by simp [WireOut, st]

theorem wireOut_ready {e : Enc} (st : e.st = .ready) : WireOut e ↔ IsOpenStream e.port e.out.trace := by simp [WireOut, st]

theorem wireOut_inWrite {e : Enc} (st : e.st = .inWrite) : WireOut e ↔ ∃ w payload, IsOpenStream e.port w ∧ payload ≠ [] ∧
    e.out.trace = w ++ [Wire.MARK, cmdByte e.port 0#4] ++ escape payload := by simp [WireOut, st]

theorem encOk_of_unconf {e : Enc} (hst : e.st = .unconf) (herr : e.err = false) (hout : e.out.trace = []) : EncOk e :=
  ⟨by simp [hst, herr], by simp [hst], (wireOut_unconf hst).2 hout⟩

/-- Every transition of the encoder keeps them: a data frame begins with the two bytes of I5, and is complete once its closing marker is
emitted. -/
theorem EncOk.encStep {initOrder : List OptField} {e e' : Enc} (h : EncOk e) (step : EncStep initOrder e e') : EncOk e' := by
  obtain ⟨herr, hregs, hwire⟩ := h
  cases step with
  | fail st => exact ⟨by simp, by simp, (wireOut_error rfl).2 ((wireOut_unconf st).1 hwire)⟩
  | construct port cfg st =>
    refine ⟨by simpa [st] using herr, fun _ => ⟨cmdRegsOf_get_toNat port, rfl, cmdByte_toNat port 0#4⟩, (wireOut_ready rfl).2 ?_⟩
    simpa [(wireOut_unconf st).1 hwire] using initFrames_isOpenStream initOrder port cfg
  | write p st =>
    refine ⟨herr, hregs, (wireOut_ready (by exact st)).2 ?_⟩
    simpa [Enc.dataFrame, Enc.endm, pre_bytes_of_regsAgree (hregs (.inl st))] using
      isOpenStream_append_dataFrame ((wireOut_ready st).1 hwire) p
  | openFrame b st =>
    have hregs := hregs (.inl st)
    refine ⟨by simpa [st] using herr, fun _ => hregs, (wireOut_inWrite rfl).2 ?_⟩
    exact ⟨e.out.trace, [b], (wireOut_ready st).1 hwire, by simp, by simp [pre_bytes_of_regsAgree hregs, escape]⟩
  | payloadByte b st =>
    obtain ⟨w, p, hopen, -, htrace⟩ := (wireOut_inWrite st).1 hwire
    refine ⟨herr, hregs, (wireOut_inWrite (by exact st)).2 ?_⟩
    exact ⟨w, p ++ [b], hopen, by simp, by simp [htrace, escape_append_singleton]⟩
  | closeFrame st =>
    obtain ⟨w, p, hopen, -, htrace⟩ := (wireOut_inWrite st).1 hwire
    refine ⟨by simpa [st] using herr, fun _ => hregs (.inr (.inl st)), (wireOut_ready rfl).2 ?_⟩
    simpa [Enc.endm, htrace] using isOpenStream_append_dataFrame hopen p
  | shutdown st =>
    refine ⟨by simpa [st] using herr, fun _ => hregs (.inl st), ?_⟩
    exact ⟨e.out.trace, (wireOut_ready st).1 hwire, rfl⟩
  | take => exact ⟨herr, hregs, hwire⟩

/-! ### The invariants of the decoder -/

theorem messagesOut_of_trace_nil {d : Dec} (h : d.out.trace = []) : MessagesOut d := ⟨[], by simp, by simp [h]⟩

/-- The messages of more runs of R179 behind whole messages, whatever is buffered then. -/
theorem messagesOut_closeRuns {d : Dec} {runs : List (List Byte)} (h : MessagesOut d)
    (hruns : ∀ r ∈ runs, r ≠ [] ∧ Wire.MARK ∉ r) (buf : List Byte) : MessagesOut (d.closeRuns runs buf) := by
  obtain ⟨earlier, hearlier, htrace⟩ := h
  exact ⟨earlier ++ runs, List.forall_mem_append.2 ⟨hearlier, hruns⟩, by simp [Dec.closeRuns, htrace]⟩

/-- R40 I1 and I3 and the messages of R179: every transition of the decoder keeps them. -/
theorem DecStep.bufOk_messagesOut {bufCap : Option Nat} {d d' : Dec} (step : DecStep bufCap d d') (hbuf : BufOk bufCap d.buf)
    (hmsgs : MessagesOut d) : BufOk bufCap d'.buf ∧ MessagesOut d' := by
  cases step with
  | take => exact ⟨hbuf, hmsgs⟩
  | intake runs buf _ _ closes | overflow runs _ _ _ closes | finish runs buf _ _ closes =>
    obtain ⟨hruns, hbuf'⟩ := closes hbuf
    exact ⟨hbuf', messagesOut_closeRuns hmsgs hruns d.buf⟩

/-! ### The invariants of the block -/

theorem OutStep.takenFits {α : Type} {o o' : Out α} (step : OutStep o o') (h : TakenFits o) : TakenFits o' := by
  cases step with
  | emit ts => exact h.trans (by simp)
  | take offered => exact Out.taken_lt_of_offered offered

theorem takenFits_empty {α : Type} : TakenFits (Out.empty : Out α) := le_refl 0

/-- A block whose encoder is not constructed, with an empty buffer and empty channels (R39). -/
theorem inv_of_reset_values {s : State} (henc : EncOk s.enc) (hbuf : s.dec.buf = []) (hesc : s.esc.out = Out.empty)
    (hunesc : s.unesc.out = Out.empty) (hencOut : s.enc.out = Out.empty) (hdec : s.dec.out = Out.empty) : Inv s where
  bufNoMark := by simp [hbuf]
  bufFits := by simp [hbuf]
  errIff := henc.errIff
  regs := henc.regs
  wire := henc.wire
  messages := messagesOut_of_trace_nil (by simp [hdec])
  takenEsc := hesc ▸ takenFits_empty
  takenUnesc := hunesc ▸ takenFits_empty
  takenEnc := hencOut ▸ takenFits_empty
  takenDec := hdec ▸ takenFits_empty

/-- Settles O54: before construction, with everything empty, the invariants hold. -/
theorem resetStateMeetsTheInvariants : Obligations.ResetStateMeetsTheInvariants :=
  inv_of_reset_values (encOk_of_unconf rfl rfl rfl) rfl rfl rfl rfl rfl

/-- What is presented is no part of the invariants. -/
theorem inv_withEnv {s : State} (h : Inv s) (env : List Presentation) : Inv { s with env := env } :=
  { h with }

/-- A step of one unit, or the reset, keeps the invariants: those of the unit by its own lemma, the others as they were. -/
theorem BlockStep.inv {s t : State} {a : Option Agent} (step : BlockStep s a t) (h : Inv s) : Inv t := by
  cases step with
  | esc step => exact { h with takenEsc := step.takenFits h.takenEsc }
  | unesc _ step => exact { h with takenUnesc := step.takenFits h.takenUnesc }
  | enc step =>
    have henc := EncOk.encStep ⟨h.errIff, h.regs, h.wire⟩ step
    exact { h with errIff := henc.errIff, regs := henc.regs, wire := henc.wire, takenEnc := step.out.takenFits h.takenEnc }
  | dec _ step =>
    obtain ⟨hbuf, hmsgs⟩ := step.bufOk_messagesOut ⟨h.bufNoMark, h.bufFits⟩ h.messages
    exact { h with bufNoMark := hbuf.1, bufFits := hbuf.2, messages := hmsgs, takenDec := step.out.takenFits h.takenDec }
  | reset ecb eob => exact inv_of_reset_values (encOk_of_unconf rfl rfl rfl) rfl rfl rfl rfl rfl

/-- Settles O55: a step that answers a next state idles or runs one operation, which keeps the invariants. -/
theorem stepKeepsTheInvariants : Obligations.StepKeepsTheInvariants := by
  intro s t h hstep
  rcases step_cases s with ⟨-, e⟩ | ⟨x, rest, -, ⟨err, -, e⟩ | ⟨i, -, e⟩⟩ <;> rw [e] at hstep
  · cases hstep
    exact h
  · exact absurd hstep (rejected_ne_next err t)
  · exact (exec_blockStep hstep).inv (inv_withEnv h rest)

/-! ### The values of reset -/

/-- Settles O52: the answer is the reset of the block, its port-derived registers free values. -/
theorem resetGivesTheResetValues : Obligations.ResetGivesTheResetValues := by
  intro ecb eob s
  exact ⟨(resetEnc s.free).port, (resetEnc s.free).cmd, (resetEnc s.free).pre, s.free + 1, rfl⟩

/-- Settles O53: each value is the one State.reset is defined with. -/
theorem resetStateHoldsTheResetValues : Obligations.ResetStateHoldsTheResetValues :=
  ⟨rfl, rfl, rfl, rfl, rfl, rfl, rfl, rfl, rfl, rfl, rfl, rfl, rfl, rfl, rfl⟩

end Sys2Proof.Machine
end

section
/-! The units against each other (20_memory.md R62, R65): what a consumer's transfer does, what an operation leaves of the other units,
and, since an operation also reads no more than its own unit, that steps of different units commute. -/

namespace Sys2Proof.Machine

/-! ### A token that is not offered -/

theorem Out.take?_eq_none {α : Type} [DecidableEq α] {o : Out α} {x : α} : o.take? x = none ↔ o.offered ≠ some x := by
  simp [Out.take?]

section
variable {s : State}

theorem takeEsc_notOffered {x : EscToken} (h : s.esc.out.offered ≠ some x) : takeEsc x s = .fault .notOffered := by
  simp [takeEsc, Out.take?_eq_none.2 h]

theorem takeUnesc_notOffered {x : EscToken} (h : s.unesc.out.offered ≠ some x) : takeUnesc x s = .fault .notOffered := by
  simp [takeUnesc, Out.take?_eq_none.2 h]

theorem takeEnc_notOffered {x : Byte} (h : s.enc.out.offered ≠ some x) : takeEnc x s = .fault .notOffered := by
  simp [takeEnc, Out.take?_eq_none.2 h]

theorem takeDec_notOffered {x : DecToken} (h : s.dec.out.offered ≠ some x) : takeDec x s = .fault .notOffered := by
  simp [takeDec, Out.take?_eq_none.2 h]

end

/-- Settles O47: each row is its channel's transfer, of the token offered or of another one. -/
theorem outputTokensAreTakenInOrder : Obligations.OutputTokensAreTakenInOrder := by
  intro s b p
  exact ⟨fun h => takeEsc_next.2 ⟨h, rfl⟩, fun h => takeEsc_next.2 ⟨h, rfl⟩,
    fun h => takeUnesc_next.2 ⟨h, rfl⟩, fun h => takeUnesc_next.2 ⟨h, rfl⟩, fun h => takeEnc_next.2 ⟨h, rfl⟩,
    fun h => takeDec_next.2 ⟨h, rfl⟩, fun h => takeDec_next.2 ⟨h, rfl⟩, fun h => takeDec_next.2 ⟨h, rfl⟩,
    takeEsc_notOffered, takeEsc_notOffered, takeUnesc_notOffered, takeUnesc_notOffered, takeEnc_notOffered,
    takeDec_notOffered, takeDec_notOffered, takeDec_notOffered⟩

/-! ### What an operation leaves of the other units -/

/-- Settles O49: a step of one unit is an update of that unit, and of the model's counter for the decoder. -/
theorem operationsTouchOnlyTheirUnit : Obligations.OperationsTouchOnlyTheirUnit := by
  intro i s t a h ha
  have step := exec_blockStep h
  rw [ha] at step
  cases step with
  | esc | unesc | enc | dec => simp

/-! ### The part of the block an operation reads and writes -/

/-- A state in which the part of one unit is taken from another state: the unit, the parameters it reads, and for the decoder the counter
of its free values. -/
def State.withPart (c : State) (a : Agent) (s : State) : State :=
  match a with
  | .esc => { c with params := s.params, esc := s.esc }
  | .unesc => { c with params := s.params, unesc := s.unesc }
  | .enc => { c with params := s.params, enc := s.enc }
  | .dec => { c with params := s.params, dec := s.dec, free := s.free }

theorem State.withPart_self (s : State) (a : Agent) : s.withPart a s = s := by
  cases a with
  | esc | unesc | enc | dec => rfl

/-- The parts of two units are apart, but for the parameters. -/
theorem State.withPart_comm (c : State) {a b : Agent} (hab : a ≠ b) {s t : State} (hp : s.params = t.params) :
    (c.withPart a s).withPart b t = (c.withPart b t).withPart a s := by
  cases a <;> cases b
  case esc.esc | unesc.unesc | enc.enc | dec.dec => exact absurd rfl hab
  all_goals simp [State.withPart, hp]

/-- The parts of the other units are what they were. -/
theorem withPart_of_exec_other {i : Instr} {s t : State} {a b : Agent} (h : exec i s = .next t) (ha : i.agent = some a)
    (hab : a ≠ b) (c : State) : c.withPart b t = c.withPart b s := by
  obtain ⟨hesc, hunesc, henc, hdec, -, hparams⟩ := operationsTouchOnlyTheirUnit i s t a h ha
  cases b with
  | esc => simp [State.withPart, hparams, hesc hab]
  | unesc => simp [State.withPart, hparams, hunesc hab]
  | enc => simp [State.withPart, hparams, henc hab]
  | dec => simp [State.withPart, hparams, hdec hab]

/-- Its own part is all an operation changes. -/
theorem withPart_of_exec_own {i : Instr} {s t : State} {a : Agent} (h : exec i s = .next t) (ha : i.agent = some a) :
    s.withPart a t = t := by
  have step := exec_blockStep h
  rw [ha] at step
  cases step with
  | esc | unesc | enc | dec => rfl

/-- A meaning is local to a unit: what it does in one state it does to the unit's part in any other. -/
def LocalTo (a : Agent) (meaning : State → Result) : Prop :=
  ∀ s t c : State, meaning s = .next t → meaning (c.withPart a s) = .next (c.withPart a t)

/-! ### The operations are local to their units -/

/-- What always completes is local when the update is. -/
theorem localTo_next {a : Agent} {f : State → State} (hf : ∀ s c : State, f (c.withPart a s) = c.withPart a (f s)) :
    LocalTo a fun s => .next (f s) := by
  intro s t c h
  cases h
  exact congrArg _ (hf s c)

/-- The decoder's admission reads the decoder. -/
theorem localTo_whenDecAdmits {f : State → State} (hf : ∀ s c : State, f (c.withPart .dec s) = c.withPart .dec (f s)) :
    LocalTo .dec fun s => whenDecAdmits s (f s) := by
  intro s t c h
  obtain ⟨he, ho, rfl⟩ := (whenDecAdmits_next _ _ _).1 h
  exact (whenDecAdmits_next _ _ _).2 ⟨he, ho, (hf s c).symm⟩

theorem State.withPart_closeRun (s c : State) : (c.withPart .dec s).closeRun = c.withPart .dec s.closeRun := by
  simp only [State.closeRun, apply_ite (c.withPart .dec)]
  rfl

theorem State.withPart_takeByte (b : Byte) (s c : State) : (c.withPart .dec s).takeByte b = c.withPart .dec (s.takeByte b) := by
  simp only [State.takeByte, State.withPart_closeRun, apply_ite (c.withPart .dec)]
  rfl

theorem State.withPart_takeChunk (bs : List Byte) (s c : State) :
    (c.withPart .dec s).takeChunk bs = c.withPart .dec (s.takeChunk bs) := by
  simp only [State.takeChunk, apply_ite (c.withPart .dec)]
  rfl

theorem localTo_decIntake (b : Byte) : LocalTo .dec (decIntake b) := localTo_whenDecAdmits (State.withPart_takeByte b)

theorem localTo_decFinish : LocalTo .dec decFinish :=
  localTo_whenDecAdmits fun s c => congrArg State.setEnded (s.withPart_closeRun c)

theorem localTo_execEncOpen (cfg : EncCfg) : LocalTo .enc (execEncOpen cfg) := by
  intro s t c h
  obtain ⟨hst, ⟨hp, rfl⟩ | ⟨port, hp, ht, hw, rfl⟩⟩ := execEncOpen_next.1 h
  · exact execEncOpen_next.2 ⟨hst, .inl ⟨hp, rfl⟩⟩
  · exact execEncOpen_next.2 ⟨hst, .inr ⟨port, hp, ht, hw, rfl⟩⟩

theorem localTo_execEncWrite (p : List Byte) : LocalTo .enc (execEncWrite p) := by
  intro s t c h
  obtain ⟨hst, rfl⟩ := execEncWrite_next.1 h
  exact execEncWrite_next.2 ⟨hst, rfl⟩

theorem localTo_execEncByte (b : Byte) : LocalTo .enc (execEncByte b) := by
  intro s t c h
  obtain ⟨hst, rfl⟩ | ⟨hst, rfl⟩ := execEncByte_next.1 h
  · exact execEncByte_next.2 (.inl ⟨hst, rfl⟩)
  · exact execEncByte_next.2 (.inr ⟨hst, rfl⟩)

theorem localTo_execEncEow : LocalTo .enc execEncEow := by
  intro s t c h
  obtain ⟨hst, rfl⟩ | ⟨hst, rfl⟩ := execEncEow_next.1 h
  · exact execEncEow_next.2 (.inl ⟨hst, rfl⟩)
  · exact execEncEow_next.2 (.inr ⟨hst, rfl⟩)

theorem localTo_encFinish : LocalTo .enc encFinish := by
  intro s t c h
  obtain ⟨hst, rfl⟩ := encFinish_next.1 h
  exact encFinish_next.2 ⟨hst, rfl⟩

theorem localTo_execUnescape (w : List Byte) : LocalTo .unesc (execUnescape w) := by
  intro s t c h
  obtain ⟨hpend, rfl⟩ := execUnescape_next.1 h
  exact execUnescape_next.2 ⟨hpend, rfl⟩

theorem localTo_takeEsc (x : EscToken) : LocalTo .esc (takeEsc x) := by
  intro s t c h
  obtain ⟨ho, rfl⟩ := takeEsc_next.1 h
  exact takeEsc_next.2 ⟨ho, rfl⟩

theorem localTo_takeUnesc (x : EscToken) : LocalTo .unesc (takeUnesc x) := by
  intro s t c h
  obtain ⟨ho, rfl⟩ := takeUnesc_next.1 h
  exact takeUnesc_next.2 ⟨ho, rfl⟩

theorem localTo_takeEnc (x : Byte) : LocalTo .enc (takeEnc x) := by
  intro s t c h
  obtain ⟨ho, rfl⟩ := takeEnc_next.1 h
  exact takeEnc_next.2 ⟨ho, rfl⟩

theorem localTo_takeDec (x : DecToken) : LocalTo .dec (takeDec x) := by
  intro s t c h
  obtain ⟨ho, rfl⟩ := takeDec_next.1 h
  exact takeDec_next.2 ⟨ho, rfl⟩

/-- Every operation but `RESET` is local to its unit (R62). -/
theorem localTo_exec {i : Instr} {a : Agent} (ha : i.agent = some a) : LocalTo a (exec i) := by
  cases i with
  | reset => cases ha
  | reservedBeat11 => intro s t c h; cases h
  | outByte ch =>
    cases ha
    cases ch with
    | escOut => exact localTo_takeEsc _
    | unescOut => exact localTo_takeUnesc _
    | encOut => exact localTo_takeEnc _
    | decOut => exact localTo_takeDec _
  | outEnd ch =>
    cases ha
    cases ch with
    | escOut => exact localTo_takeEsc _
    | unescOut => exact localTo_takeUnesc _
  | outEom | outHdr => cases ha; exact localTo_takeDec _
  | escape | escByte | escEnd | unescByte | unescEnd => cases ha; exact localTo_next fun _ _ => rfl
  | unescape => cases ha; exact localTo_execUnescape _
  | encOpen => cases ha; exact localTo_execEncOpen _
  | encWrite => cases ha; exact localTo_execEncWrite _
  | encByte => cases ha; exact localTo_execEncByte _
  | encEow => cases ha; exact localTo_execEncEow
  | encClose | encEos => cases ha; exact localTo_encFinish
  | decChunk bs => cases ha; exact localTo_whenDecAdmits (State.withPart_takeChunk bs)
  | decCend => cases ha; exact localTo_whenDecAdmits fun _ _ => rfl
  | decEnd | decEos => cases ha; exact localTo_decFinish
  | mark | esc | escMark | escEsc | escBad | lit | cmd | data | txDelay | persist | slotTime | txTail | fullDup | setHw
  | reservedKind7 | reservedKind8 | reservedKind9 | reservedKind10 | reservedKind11 | reservedKind12 | reservedKind13
  | reservedKind14 | exit | kindFOtherPort | decByte => cases ha; exact localTo_decIntake _

/-! ### Steps of different units commute -/

/-- Settles O50: the second operation finds its part in the first state, and the first operation its own after the second. -/
theorem stepsOfDifferentUnitsCommute : Obligations.StepsOfDifferentUnitsCommute := by
  intro i j a b s t u ha hb hab hi hj
  have hs : s.withPart b t = s := by rw [withPart_of_exec_other hi ha hab, State.withPart_self]
  have hj' : exec j s = .next (s.withPart b u) := by simpa only [hs] using localTo_exec hb t u s hj
  have hs' : (s.withPart b u).withPart a s = s.withPart b u := by
    rw [← withPart_of_exec_other hj' hb hab.symm, State.withPart_self]
  have hi' : exec i (s.withPart b u) = .next ((s.withPart b u).withPart a t) := by
    simpa only [hs'] using localTo_exec ha s t (s.withPart b u) hi
  obtain ⟨-, -, -, -, -, hparams⟩ := operationsTouchOnlyTheirUnit j t u b hj hb
  have hu : (s.withPart b u).withPart a t = u := by
    rw [← State.withPart_comm s hab hparams.symm, withPart_of_exec_own hi ha, withPart_of_exec_own hj hb]
  exact ⟨s.withPart b u, hj', hi'.trans (congrArg _ hu)⟩

end Sys2Proof.Machine
end

section
/-! The decoder against the encoder (30_encoding.md R80, R86, R92, R98 to R101): the class of a wire byte and the row of a command byte,
said once for all positions and kinds; then the round trip, what the decoder can answer, and the step that runs a table word. -/

namespace Sys2Proof.Machine

/-! ### The classes of a wire byte -/

@[simp] theorem wireClass_mark (pos : Position) : wireClass pos Wire.MARK = .mark := rfl

/-- The one pair of nibbles `CMD` leaves out is that of the boundary (R80, R92). -/
theorem wellFormed_cmd_iff (port kind : Nibble) : (Instr.cmd port kind).wellFormed = true ↔ cmdByte port kind ≠ Wire.MARK := by
  simp [Instr.wellFormed, cmdByte_eq_mark_iff, imp_iff_not_or]

section
variable {b : Byte} (hb : b ≠ Wire.MARK)
include hb

theorem wireClass_runStart : wireClass .runStart b = .cmd (portOf b) (kindOf b) := by simp [wireClass, hb]

theorem wireClass_content_lit (he : b ≠ Wire.ESC) : wireClass .content b = .lit b := by simp [wireClass, hb, he]

theorem wireClass_afterEsc_bad (hm : b ≠ Wire.ESC_MARK) (he : b ≠ Wire.ESC_ESC) : wireClass .afterEsc b = .escBad b := by
  simp [wireClass, hb, hm, he]

/-- The class of a byte other than the boundary: one row of R80 for each position and each value set apart there. -/
theorem wireClass_cases (pos : Position) :
    (pos = .runStart ∧ wireClass pos b = .cmd (portOf b) (kindOf b)) ∨
      (pos = .content ∧ b = Wire.ESC ∧ wireClass pos b = .esc) ∨
      (pos = .content ∧ b ≠ Wire.ESC ∧ wireClass pos b = .lit b) ∨
      (pos = .afterEsc ∧ b = Wire.ESC_MARK ∧ wireClass pos b = .escMark) ∨
      (pos = .afterEsc ∧ b = Wire.ESC_ESC ∧ wireClass pos b = .escEsc) ∨
      (pos = .afterEsc ∧ b ≠ Wire.ESC_MARK ∧ b ≠ Wire.ESC_ESC ∧ wireClass pos b = .escBad b) := by
  cases pos with
  | runStart => simp [wireClass_runStart hb]
  | content =>
    by_cases he : b = Wire.ESC
    · subst he; decide
    · simp [wireClass_content_lit hb he, he]
  | afterEsc =>
    by_cases hm : b = Wire.ESC_MARK
    · subst hm; decide
    by_cases he : b = Wire.ESC_ESC
    · subst he; decide
    simp [wireClass_afterEsc_bad hb hm he, hm, he]

/-- A wire byte other than the boundary names at each position a row that stands there and nowhere else (R80). -/
theorem wireClass_standsAt_iff (pos q : Position) : (wireClass pos b).standsAt q = true ↔ q = pos := by
  rcases wireClass_cases hb pos with ⟨rfl, e⟩ | ⟨rfl, -, e⟩ | ⟨rfl, -, e⟩ | ⟨rfl, -, e⟩ | ⟨rfl, -, e⟩ | ⟨rfl, -, -, e⟩ <;>
    simp [e, Instr.standsAt]

/-- No class is read off a value that R80 leaves out of it. -/
theorem wireClass_wellFormed (pos : Position) : (wireClass pos b).wellFormed = true := by
  rcases wireClass_cases hb pos with ⟨-, e⟩ | ⟨-, -, e⟩ | ⟨-, he, e⟩ | ⟨-, -, e⟩ | ⟨-, -, e⟩ | ⟨-, hm, he, e⟩
  · rwa [e, wellFormed_cmd_iff, cmdByte_portOf_kindOf]
  · simp [e, Instr.wellFormed]
  · simp [e, Instr.wellFormed, hb, he]
  · simp [e, Instr.wellFormed]
  · simp [e, Instr.wellFormed]
  · simp [e, Instr.wellFormed, hb, hm, he]

/-! ### The rows of a command byte -/

/-- Only the first byte of a run is read by its kind (R80, R86). -/
theorem commandClass_cases (pos : Position) :
    (pos = .runStart ∧ commandClass pos b = commandRow b) ∨ (pos ≠ .runStart ∧ commandClass pos b = wireClass pos b) := by
  rcases wireClass_cases hb pos with ⟨rfl, e⟩ | ⟨rfl, -, e⟩ | ⟨rfl, -, e⟩ | ⟨rfl, -, e⟩ | ⟨rfl, -, e⟩ | ⟨rfl, -, -, e⟩ <;>
    simp [commandClass, e]

/-- The two bytes R86 leaves out of a row are 0xC0, which is `MARK` (R92), and 0xFF, which is `EXIT` (R84). -/
theorem commandRow_wellFormed : (commandRow b).wellFormed = true := by
  revert b; decide

end

/-- A command byte row stands at the start of a run only (R80, R86). -/
theorem commandRow_standsAt_iff (b : Byte) (pos : Position) : (commandRow b).standsAt pos = true ↔ pos = .runStart := by
  unfold commandRow
  repeat' split
  all_goals simp [Instr.standsAt]

/-! ### What is encoded is decoded back -/

/-- A T-level call is split into its data bytes and the kind of its delimiter (R30 to R32). -/
theorem splitCall_callBeats (s : List Byte) : splitCall (callBeats s) = some (s, 1#2) := by
  induction s with
  | nil => simp [callBeats, splitCall]
  | cons b s ih =>
    obtain ⟨v, ws, hv⟩ : ∃ v ws, callBeats s = v :: ws := List.exists_cons_of_ne_nil (by simp [callBeats])
    have hcons : callBeats (b :: s) = byteBeat b :: v :: ws := by rw [← hv]; rfl
    rw [hv] at ih
    simp [hcons, splitCall, ih]

/-- A field presented by its presence bit and its value pins (R34). -/
theorem present_getD {α : Type} (field : Option α) (d : α) : (if field.isSome then some (field.getD d) else none) = field := by
  cases field with
  | none | some => rfl

/-- The pins of a record present what the record holds (R34, R100). -/
theorem decodeCfg_encodeCfg (cfg : EncCfg) : decodeCfg (encodeCfg cfg) = cfg := by
  obtain ⟨port, fd, hw, pers, slot, txd, txt⟩ := cfg
  exact (EncCfg.mk.injEq ..).mpr ⟨present_getD port _, present_getD fd _, present_getD hw _, present_getD pers _,
    present_getD slot _, present_getD txd _, present_getD txt _⟩

theorem mkBeat_ne_closeBeat {k : BeatKind} (hk : k ≠ 1#2) (d : Byte) : mkBeat k d ≠ closeBeat := by
  intro h
  exact hk (by simpa using congrArg beatKind h)

theorem decode_command_runStart {b : Byte} (hb : b ≠ Wire.MARK) : decode .runStart (.command b) = .ok (commandRow b) := by
  obtain ⟨-, e⟩ | ⟨h, -⟩ := commandClass_cases hb .runStart
  · rw [decode, e]
  · exact absurd rfl h

/-- A command byte assembled of a port and a kind, other than 0xC0 and 0xFF, decodes to the row of its kind (R86). -/
theorem decode_command_cmdByte {port kind : Nibble} {i : Instr} (hmark : ¬(port = 12#4 ∧ kind = 0#4))
    (hrow : commandRow (cmdByte port kind) = i) : decode .runStart (.command (cmdByte port kind)) = .ok i := by
  rw [decode_command_runStart (mt (cmdByte_eq_mark_iff port kind).1 hmark), hrow]

/-- Settles O1, by the rows of R80, R86 and R98: a wire row at its position by its class, a command row by its kind, a call by its
split, a beat by its kind bits. -/
theorem decodeOfEncodeIsTheInstruction : Obligations.DecodeOfEncodeIsTheInstruction := by
  intro i pos hwf hpos
  cases i with
  | mark => rfl
  | esc | escMark | escEsc =>
    obtain rfl := eq_of_beq hpos
    rfl
  | escBad b =>
    obtain rfl := eq_of_beq hpos
    simp only [Instr.wellFormed, Bool.and_eq_true, bne_iff_ne] at hwf
    obtain ⟨⟨hb, hm⟩, he⟩ := hwf
    exact congrArg _ (wireClass_afterEsc_bad hb hm he)
  | lit b =>
    obtain rfl := eq_of_beq hpos
    simp only [Instr.wellFormed, Bool.and_eq_true, bne_iff_ne] at hwf
    obtain ⟨hb, he⟩ := hwf
    exact congrArg _ (wireClass_content_lit hb he)
  | cmd port kind =>
    obtain rfl := eq_of_beq hpos
    simp [encode, decode, wireClass_runStart ((wellFormed_cmd_iff port kind).1 hwf)]
  | data port =>
    obtain rfl := eq_of_beq hpos
    have hport : port ≠ 12#4 := by simpa [Instr.wellFormed] using hwf
    exact decode_command_cmdByte (by simp [hport]) (by simp [commandRow, cmdByte_eq_exit_iff])
  | kindFOtherPort port =>
    obtain rfl := eq_of_beq hpos
    have hport : port ≠ 15#4 := by simpa [Instr.wellFormed] using hwf
    exact decode_command_cmdByte (by simp) (by simp [commandRow, cmdByte_eq_exit_iff, hport])
  | exit =>
    obtain rfl := eq_of_beq hpos
    rfl
  | txDelay | persist | slotTime | txTail | fullDup | setHw | reservedKind7 | reservedKind8 | reservedKind9 | reservedKind10
  | reservedKind11 | reservedKind12 | reservedKind13 | reservedKind14 =>
    obtain rfl := eq_of_beq hpos
    exact decode_command_cmdByte (by simp) (by simp [commandRow, cmdByte_eq_exit_iff])
  | escape | unescape | encWrite | decChunk => simp [encode, decode, decodeCall, splitCall_callBeats]
  | encClose | decEnd => simp [encode, decode, decodeCall, splitCall]
  | encOpen cfg => simp [encode, decode, decodeCfg_encodeCfg]
  | reset => rfl
  | escByte | unescByte | encByte | decByte | escEnd | unescEnd | encEow | decCend | encEos | decEos | reservedBeat11 =>
    simp [encode, decode, decodeBeat]
  | outByte => simp [encode, decode, decodeTake]
  | outEnd ch => cases ch <;> rfl
  | outEom => rfl
  | outHdr p => simp [encode, decode, decodeTake, mkBeat_ne_closeBeat]

/-! ### What is decoded is well-formed and stands where it was decoded -/

/-- Only the wire rows and command rows have operands left out and a position (R80, R86). -/
theorem wellFormed_standsAt_of_wireByte_none {i : Instr} (h : i.wireByte = none) (pos : Position) :
    i.wellFormed = true ∧ i.standsAt pos = true := by
  cases i with
  | mark | esc | escMark | escEsc | escBad | lit | cmd | data | txDelay | persist | slotTime | txTail | fullDup | setHw
  | reservedKind7 | reservedKind8 | reservedKind9 | reservedKind10 | reservedKind11 | reservedKind12 | reservedKind13
  | reservedKind14 | exit | kindFOtherPort => cases h
  | escape | unescape | encOpen | encWrite | encClose | decChunk | decEnd | reset | escByte | escEnd | unescByte | unescEnd
  | encByte | encEow | encEos | decByte | decCend | decEos | reservedBeat11 | outByte | outEnd | outEom | outHdr =>
    exact ⟨rfl, rfl⟩

/-- A beat on an input channel is no wire row and no command row (R98). -/
theorem wireByte_of_decodeBeat {ch : InChannel} {w : Beat} {i : Instr} (h : decodeBeat ch w = .ok i) : i.wireByte = none := by
  unfold decodeBeat at h
  split at h <;> cases ch <;> cases h <;> rfl

/-- Nor is a T-level call (R30 to R32). -/
theorem wireByte_of_decodeCall {ch : InChannel} {ws : List Beat} {i : Instr} (h : decodeCall ch ws = .ok i) :
    i.wireByte = none := by
  unfold decodeCall at h
  split at h
  · cases h
  · split_ifs at h <;> cases ch <;> cases h <;> rfl

/-- Nor is a token taken from an output channel (R98). -/
theorem wireByte_of_decodeTake {ch : OutChannel} {w : Beat} {i : Instr} (h : decodeTake ch w = .ok i) : i.wireByte = none := by
  unfold decodeTake at h
  split_ifs at h
  · cases h; rfl
  · cases ch <;> cases h <;> rfl
  · cases h; rfl

/-- What a wire byte is read as, by its class or by its kind. -/
theorem commandClass_wellFormed_standsAt (pos : Position) (b : Byte) :
    (commandClass pos b).wellFormed = true ∧ (commandClass pos b).standsAt pos = true := by
  by_cases hb : b = Wire.MARK
  · subst hb; exact ⟨rfl, rfl⟩
  rcases commandClass_cases hb pos with ⟨rfl, e⟩ | ⟨-, e⟩
  · rw [e]
    exact ⟨commandRow_wellFormed hb, (commandRow_standsAt_iff b _).2 rfl⟩
  · rw [e]
    exact ⟨wireClass_wellFormed hb pos, (wireClass_standsAt_iff hb pos pos).2 rfl⟩

theorem wireClass_wellFormed_standsAt (pos : Position) (b : Byte) :
    (wireClass pos b).wellFormed = true ∧ (wireClass pos b).standsAt pos = true := by
  by_cases hb : b = Wire.MARK
  · subst hb; exact ⟨rfl, rfl⟩
  · exact ⟨wireClass_wellFormed hb pos, (wireClass_standsAt_iff hb pos pos).2 rfl⟩

/-- Settles O2: a wire byte is read as a row of its position, and every other form as a row that stands anywhere. -/
theorem decodedInstructionIsWellFormedInItsPosition : Obligations.DecodedInstructionIsWellFormedInItsPosition := by
  intro pos x i h
  cases x with
  | wire b => cases h; exact wireClass_wellFormed_standsAt pos b
  | command b => cases h; exact commandClass_wellFormed_standsAt pos b
  | beat ch w => exact wellFormed_standsAt_of_wireByte_none (wireByte_of_decodeBeat h) pos
  | call ch ws => exact wellFormed_standsAt_of_wireByte_none (wireByte_of_decodeCall h) pos
  | take ch w => exact wellFormed_standsAt_of_wireByte_none (wireByte_of_decodeTake h) pos
  | encOpen | rst => cases h; exact ⟨rfl, rfl⟩

/-! ### A table word runs next -/

/-- A step runs an operation, from a state that differs from `s` at most in the decoder's buffer, which puts the
decoder's input where the operation stands, and is `s`'s own where it stands there already. -/
def RunsIn (s : State) (i : Instr) (r : Result) : Prop :=
  ∃ buf, r = exec i (s.setBuf buf) ∧ i.standsAt (s.setBuf buf).dec.position = true ∧
    (i.standsAt s.dec.position = true → buf = s.dec.buf)

/-- The buffers of `bufferAt` are at their positions. -/
theorem position_setBuf_bufferAt (s : State) (p : Position) : (s.setBuf (bufferAt p)).dec.position = p := by
  cases p with
  | runStart | content | afterEsc => rfl

/-- A form that names the operation wherever the decoder's input is, presented with the buffer as it was. -/
theorem runsIn_of_decode_here {s : State} {x : Presentation} {i : Instr} (hd : decode s.dec.position x = .ok i) :
    RunsIn s i (step { s with env := x :: s.env }) :=
  ⟨s.dec.buf, step_of_decode_ok rfl hd, (decodedInstructionIsWellFormedInItsPosition _ x i hd).2, fun _ => rfl⟩

/-- A form that names an operation of one position only, presented with the decoder's input put there. -/
theorem runsIn_atPosition {s : State} {x : Presentation} {i : Instr} {p : Position} (hd : decode p x = .ok i)
    (hp : ∀ q, i.standsAt q = true → q = p) : RunsIn s i (step { s.atPosition p with env := x :: s.env }) := by
  by_cases h : s.dec.position = p
  · subst h
    simpa [State.atPosition] using runsIn_of_decode_here hd
  · rw [State.atPosition, if_neg h]
    have hpos := position_setBuf_bufferAt s p
    refine ⟨bufferAt p, step_of_decode_ok rfl (by simpa [hpos] using hd), ?_, fun hs => absurd (hp _ hs) h⟩
    rw [hpos]
    exact (decodedInstructionIsWellFormedInItsPosition p x i hd).2

theorem presentBeat_ne_command (sel : Nat) (w : Beat) (b : Byte) : presentBeat sel w ≠ some (.command b) := by
  unfold presentBeat
  split <;> nofun

/-- The byte of a table word is presented as a command byte only if it is none of the constants of R8 (log 4). -/
theorem ne_mark_of_presentTableWord {nbits w : Nat} {b : Byte} (h : presentTableWord nbits w = some (.command b)) :
    b ≠ Wire.MARK := by
  dsimp only [presentTableWord] at h
  split_ifs at h with hbits hw hconst hbeat
  · cases h
  · cases h
    exact fun hb => hconst (by simp [hb])
  · exact absurd h (presentBeat_ne_command _ _ b)

theorem decodeTableWord_eq_some {nbits w : Nat} {i : Instr} (h : decodeTableWord nbits w = some i) :
    ∃ x, presentTableWord nbits w = some x ∧ decode (tablePosition x) x = .ok i := by
  unfold decodeTableWord at h
  cases hx : presentTableWord nbits w with
  | none => simp [hx] at h
  | some x =>
    cases hd : decode (tablePosition x) x with
    | error e => simp [hx, hd, Except.toOption] at h
    | ok j => simpa [hx, hd, Except.toOption] using h

/-- Settles O7: a boundary and a form that is no wire byte name their operation wherever the decoder's input is; any other wire byte
names one of a single position, and the decoder's input is put there. -/
theorem presentedTableWordRunsNext : Obligations.PresentedTableWordRunsNext := by
  intro s nbits w i h
  obtain ⟨x, hx, hd⟩ := decodeTableWord_eq_some h
  rw [State.withFetchWord, State.presentWord, hx]
  change RunsIn s i (step (s.presentFirst x))
  cases x with
  | wire b =>
    by_cases hb : b = Wire.MARK
    · subst hb
      rw [State.presentFirst, if_pos rfl, State.atPosition, if_pos rfl]
      exact runsIn_of_decode_here hd
    · rw [State.presentFirst, if_neg hb]
      refine runsIn_atPosition hd fun q hq => ?_
      cases hd
      exact (wireClass_standsAt_iff hb _ q).1 hq
  | command b =>
    refine runsIn_atPosition hd fun q hq => ?_
    rw [tablePosition, decode_command_runStart (ne_mark_of_presentTableWord hx)] at hd
    cases hd
    exact (commandRow_standsAt_iff b q).1 hq
  | beat | call | encOpen | rst | take => exact runsIn_of_decode_here hd

/-! ### Bytes and beats by their values -/

/-- Settles O3: each conjunct evaluates one word. -/
theorem wordsOfTheSpecDecodeToTheirRows : Obligations.WordsOfTheSpecDecodeToTheirRows := by
  unfold Obligations.WordsOfTheSpecDecodeToTheirRows
  decide

/-- A byte is 16 times its port field and its kind field (R88). -/
theorem toNat_eq_portOf_kindOf (b : Byte) : b.toNat = 16 * (portOf b).toNat + (kindOf b).toNat := by
  rw [← cmdByte_toNat, cmdByte_portOf_kindOf]

/-- Settles O4: the boundary at every position, and the classes of the other bytes at each. -/
theorem wireClassFollowsValueAndPosition : Obligations.WireClassFollowsValueAndPosition := by
  intro b
  refine ⟨?_, fun hb => ⟨portOf b, kindOf b, congrArg _ (wireClass_runStart hb), toNat_eq_portOf_kindOf b⟩, ?_,
    fun hb he => congrArg _ (wireClass_content_lit hb he), ?_, ?_,
    fun hb hm he => congrArg _ (wireClass_afterEsc_bad hb hm he)⟩
  · rintro pos rfl; rfl
  · rintro rfl; rfl
  · rintro rfl; rfl
  · rintro rfl; rfl

/-- Settles O5: the fields are read back from the assembled byte, and every byte is assembled from its fields. -/
theorem commandByteIsSixteenPortPlusKind : Obligations.CommandByteIsSixteenPortPlusKind := by
  refine ⟨fun port kind => ⟨cmdByte_toNat port kind, portOf_cmdByte port kind⟩, fun c => ?_⟩
  have hc := toNat_eq_portOf_kindOf c
  have hkind := (kindOf c).isLt
  omega

/-- The kind bits of a beat by its value (R98). -/
theorem beatKind_toNat (w : Beat) : (beatKind w).toNat = w.toNat / 256 := by
  have hw := w.isLt
  simp only [beatKind, BitVec.toNat_setWidth, BitVec.toNat_ushiftRight, Nat.shiftRight_eq_div_pow]
  omega

/-- Kind 10 names no token of the two escapers (R99). -/
theorem decodeBeat_reservedKind10 {ch : InChannel} {w : Beat} (hch : ch = .escIn ∨ ch = .unescIn)
    (hw : (beatKind w).toNat = 2) : decodeBeat ch w = .error .reservedKind10 := by
  rcases hch with rfl | rfl <;> simp [decodeBeat, hw]

/-- Settles O9: kind 11 is an operation that always stops, kind 10 on the two channels no operation. -/
theorem reservedBeatsAreNeverAdmitted : Obligations.ReservedBeatsAreNeverAdmitted := by
  refine ⟨fun _ _ _ => rfl, fun s w rest hlo hhi henv => ?_⟩
  have hkind : (beatKind w).toNat = 2 := by rw [beatKind_toNat]; omega
  rcases henv with henv | henv
  · exact step_of_decode_error henv (decodeBeat_reservedKind10 (.inl rfl) hkind)
  · exact step_of_decode_error henv (decodeBeat_reservedKind10 (.inr rfl) hkind)

end Sys2Proof.Machine
end

section
/-! What the decoder makes of a wire byte (30_encoding.md R80, R94; 42_decoder.md R170, R174, R195): the scan of R113 over contents put
together, the intake of a byte case by case, and every wire row and command row as the intake of its byte; then the shutdown of the
encoder. -/

namespace Sys2Proof.Machine

/-! ### The scan of a content -/

section
variable {b : Byte} (w : List Byte)

@[simp] theorem unescape_nil : unescape [] = [] := rfl

@[simp] theorem unescape_esc_cons (x : Byte) : unescape (Wire.ESC :: x :: w) = unesc2 x ++ unescape w := by simp [unescape]

theorem unescape_cons (hb : b ≠ Wire.ESC) : unescape (b :: w) = b :: unescape w := by
  cases w <;> simp [unescape, hb]

theorem unesc2_bad (hm : b ≠ Wire.ESC_MARK) (he : b ≠ Wire.ESC_ESC) : unesc2 b = [] := by simp [unesc2, hm, he]

@[simp] theorem escPending_nil : escPending [] = false := rfl

@[simp] theorem escPending_esc_cons (x : Byte) : escPending (Wire.ESC :: x :: w) = escPending w := rfl

theorem escPending_cons (hb : b ≠ Wire.ESC) : escPending (b :: w) = escPending w := by
  simp [escPending, pendNext, beq_eq_false_iff_ne.2 hb]

/-- Where no pair is open the scan begins anew (R113, R210). -/
theorem unescape_append {w : List Byte} (hw : escPending w = false) (v : List Byte) :
    unescape (w ++ v) = unescape w ++ unescape v := by
  induction w using unescape.induct with
  | case1 => rfl
  | case2 => cases hw
  | case3 b hb => simp [unescape_cons _ hb]
  | case4 x w ih =>
    rw [escPending_esc_cons] at hw
    simp [ih hw]
  | case5 b x w hb ih =>
    rw [escPending_cons _ hb] at hw
    rw [List.cons_append, unescape_cons _ hb, unescape_cons _ hb, ih hw, List.cons_append]

/-- Where no pair is open, whether one is open after more content depends on that alone. -/
theorem escPending_append {w : List Byte} (hw : escPending w = false) (v : List Byte) :
    escPending (w ++ v) = escPending v := by
  rw [escPending, List.foldl_append]
  exact congrArg (v.foldl pendNext) hw

end

/-- Settles O17: the scan begins anew before the pair, which contributes nothing, and after it. -/
theorem malformedPairIsDroppedWithoutRescan : Obligations.MalformedPairIsDroppedWithoutRescan := by
  intro w v x hw hm he
  rw [List.append_assoc, unescape_append hw]
  simp [unesc2_bad hm he]

/-! ### The intake of one byte -/

/-- A buffer has room below its capacity, and without one always (R51, R53). -/
theorem fits_iff (bufCap : Option Nat) (fill : Nat) : fits bufCap fill = true ↔ ∀ c, bufCap = some c → fill < c := by
  cases bufCap <;> simp [fits]

section
variable {b : Byte} {s : State} (he : s.dec.ended = false) (ho : s.dec.ovf = false)
include he ho

theorem decIntake_of_admitting : decIntake b s = .next (s.takeByte b) := whenDecAdmits_of_admitting _ he ho

/-- A boundary on an empty buffer does nothing (R170, R193). -/
theorem decIntake_mark_idle (hbuf : s.dec.buf = []) : decIntake Wire.MARK s = .next s := by
  simp [decIntake_of_admitting he ho, State.takeByte, State.closeRun, hbuf]

/-- A boundary closes the buffered run (R170). -/
theorem decIntake_mark_accum (hbuf : s.dec.buf ≠ []) :
    decIntake Wire.MARK s = .next ((s.emitDec (message s.dec.ecb s.dec.eob s.dec.buf)).setBuf []) := by
  simp [decIntake_of_admitting he ho, State.takeByte, State.closeRun, hbuf]

/-- Any other byte is appended where there is room (R170). -/
theorem decIntake_append (hb : b ≠ Wire.MARK) (hroom : ∀ c, s.params.bufCap = some c → s.dec.buf.length < c) :
    decIntake b s = .next (s.bufAppend b) := by
  simp [decIntake_of_admitting he ho, State.takeByte, hb, (fits_iff _ _).2 hroom]

/-- And overflows where there is none (R195). -/
theorem decIntake_overflow {c : Nat} (hb : b ≠ Wire.MARK) (hcap : s.params.bufCap = some c) (hfull : c ≤ s.dec.buf.length) :
    decIntake b s = .next s.raiseBufOverflow := by
  have hfits : fits s.params.bufCap s.dec.buf.length = false := by simpa [fits, hcap] using hfull
  simp [decIntake_of_admitting he ho, State.takeByte, hb, hfits]

end

/-- Every wire row and command row is the intake of its byte (log 5). -/
theorem exec_of_wireByte {i : Instr} {b : Byte} (h : i.wireByte = some b) : exec i = decIntake b := by
  cases i with
  | mark | esc | escMark | escEsc | escBad | lit | cmd | data | txDelay | persist | slotTime | txTail | fullDup | setHw
  | reservedKind7 | reservedKind8 | reservedKind9 | reservedKind10 | reservedKind11 | reservedKind12 | reservedKind13
  | reservedKind14 | exit | kindFOtherPort => cases h; rfl
  | escape | unescape | encOpen | encWrite | encClose | decChunk | decEnd | reset | escByte | escEnd | unescByte | unescEnd
  | encByte | encEow | encEos | decByte | decCend | decEos | reservedBeat11 | outByte | outEnd | outEom | outHdr => cases h

/-- Settles O34: the four cases of the intake. -/
theorem wireRowsAreTakenAsTheirByte : Obligations.WireRowsAreTakenAsTheirByte := by
  intro i b s hi he ho
  rw [exec_of_wireByte hi]
  refine ⟨?_, ?_, decIntake_append he ho, fun c hb hcap hfull => ⟨_, _, decIntake_overflow he ho hb hcap hfull⟩⟩
  · rintro rfl hbuf
    exact decIntake_mark_idle he ho hbuf
  · rintro rfl hbuf
    exact decIntake_mark_accum he ho hbuf

/-! ### Runs of wire rows -/

theorem execAll_cons_next {i : Instr} {is : List Instr} {s t : State} (h : exec i s = .next t) :
    execAll (i :: is) s = execAll is t := by
  simp [execAll, h]

/-- A row whose byte is no boundary, in a decoder with room for it. -/
theorem execAll_append {i : Instr} {is : List Instr} {b : Byte} {s : State} (hi : i.wireByte = some b) (hb : b ≠ Wire.MARK)
    (he : s.dec.ended = false) (ho : s.dec.ovf = false)
    (hroom : ∀ c, s.params.bufCap = some c → s.dec.buf.length < c) : execAll (i :: is) s = execAll is (s.bufAppend b) := by
  refine execAll_cons_next ?_
  rw [exec_of_wireByte hi]
  exact decIntake_append he ho hb hroom

/-- A boundary closes the run and leaves the buffer empty. -/
theorem execAll_mark_accum {is : List Instr} {s : State} (he : s.dec.ended = false) (ho : s.dec.ovf = false)
    (hbuf : s.dec.buf ≠ []) :
    execAll (.mark :: is) s = execAll is ((s.emitDec (message s.dec.ecb s.dec.eob s.dec.buf)).setBuf []) :=
  execAll_cons_next (decIntake_mark_accum he ho hbuf)

/-- Settles O44: the byte is a run of its own, and the boundary closes it. -/
theorem everyCommandByteIsDelivered : Obligations.EveryCommandByteIsDelivered := by
  intro i b s hi _ hb he ho hbuf hcap
  have hroom : ∀ c, s.params.bufCap = some c → s.dec.buf.length < c := by rw [hbuf]; exact hcap
  rw [execAll_append hi hb he ho hroom, execAll_mark_accum (s := s.bufAppend b) he ho (by simp)]
  simp [execAll, State.bufAppend, State.emitDec, State.setBuf, Out.emit, hbuf]

/-! ### What a pair and a literal add to a content -/

theorem Dec.position_eq_content {d : Dec} :
    d.position = .content ↔ ∃ cmd content, d.buf = cmd :: content ∧ escPending content = false := by
  cases h : d.buf with
  | nil => simp [Dec.position, h]
  | cons cmd content => cases hp : escPending content <;> simp [Dec.position, h, hp]

/-- Bytes buffered in content that leave no pair open: the decoder is in content again, and the data gain what the bytes stand for. -/
theorem Dec.content_append {d d' : Dec} {v : List Byte} (hd : d.position = .content) (hv : escPending v = false)
    (hbuf : d'.buf = d.buf ++ v) :
    d'.position = .content ∧ d'.buf.head? = d.buf.head? ∧ unescape d'.buf.tail = unescape d.buf.tail ++ unescape v := by
  obtain ⟨cmd, content, hcontent, hp⟩ := Dec.position_eq_content.1 hd
  rw [hcontent, List.cons_append] at hbuf
  refine ⟨Dec.position_eq_content.2 ⟨cmd, content ++ v, hbuf, by rw [escPending_append hp, hv]⟩, ?_, ?_⟩
  · rw [hbuf, hcontent]; rfl
  · rw [hbuf, hcontent]; exact unescape_append hp v

/-- A run of rows contributes to the data of its run: it completes in content, the command byte and what was emitted as they were, and the data
longer by `data`. -/
def Contributes (is : List Instr) (s : State) (data : List Byte) : Prop :=
  ∃ t, execAll is s = .next t ∧ t.dec.position = .content ∧ t.dec.buf.head? = s.dec.buf.head? ∧
    unescape t.dec.buf.tail = unescape s.dec.buf.tail ++ data ∧ t.dec.out = s.dec.out

section
variable {s : State} {i : Instr} {b : Byte} (he : s.dec.ended = false) (ho : s.dec.ovf = false) (hpos : s.dec.position = .content)
  (hroom : ∀ c, s.params.bufCap = some c → s.dec.buf.length + 2 ≤ c) (hi : i.wireByte = some b) (hb : b ≠ Wire.MARK)
include he ho hpos hroom hi hb

/-- An escape and the row after it contribute what R112 gives the pair. -/
theorem contributes_escPair : Contributes [.esc, i] s (unesc2 b) := by
  have hfirst : ∀ c, s.params.bufCap = some c → s.dec.buf.length < c := fun c hc => Nat.lt_of_succ_lt (hroom c hc)
  have hsecond : ∀ c, s.params.bufCap = some c → (s.dec.buf ++ [Wire.ESC]).length < c := fun c hc => by
    rw [List.length_append]
    exact hroom c hc
  have hbuf : ((s.bufAppend Wire.ESC).bufAppend b).dec.buf = s.dec.buf ++ [Wire.ESC, b] := by simp
  obtain ⟨hcontent, hhead, hdata⟩ := Dec.content_append hpos rfl hbuf
  refine ⟨_, ?_, hcontent, hhead, by simpa using hdata, rfl⟩
  rw [execAll_append rfl (by decide) he ho hfirst, execAll_append (s := s.bufAppend Wire.ESC) hi hb he ho hsecond]
  rfl

/-- Any other row of a content byte contributes the byte. -/
theorem contributes_lit (hesc : b ≠ Wire.ESC) : Contributes [i] s [b] := by
  have hfirst : ∀ c, s.params.bufCap = some c → s.dec.buf.length < c := fun c hc => Nat.lt_of_succ_lt (hroom c hc)
  have hclosed : escPending [b] = false := by rw [escPending_cons _ hesc, escPending_nil]
  obtain ⟨hcontent, hhead, hdata⟩ := Dec.content_append (d' := (s.bufAppend b).dec) hpos hclosed rfl
  rw [unescape_cons _ hesc, unescape_nil] at hdata
  exact ⟨_, execAll_append hi hb he ho hfirst, hcontent, hhead, hdata, rfl⟩

end

/-- Settles O35: the three classes of a pair, and the literal. -/
theorem contentClassesContributeTheirData : Obligations.ContentClassesContributeTheirData := by
  intro s is data he ho hpos hroom hclass
  change Contributes is s data
  rcases hclass with ⟨rfl, rfl⟩ | ⟨rfl, rfl⟩ | ⟨b, hwf, rfl, rfl⟩ | ⟨b, hwf, rfl, rfl⟩
  · exact contributes_escPair (i := .escMark) he ho hpos hroom rfl (by decide)
  · exact contributes_escPair (i := .escEsc) he ho hpos hroom rfl (by decide)
  · simp only [Instr.wellFormed, Bool.and_eq_true, bne_iff_ne] at hwf
    obtain ⟨⟨hb, hm⟩, hesc⟩ := hwf
    rw [← unesc2_bad hm hesc]
    exact contributes_escPair he ho hpos hroom rfl hb
  · simp only [Instr.wellFormed, Bool.and_eq_true, bne_iff_ne] at hwf
    obtain ⟨hb, hesc⟩ := hwf
    exact contributes_lit he ho hpos hroom rfl hb hesc

/-! ### The shutdown of the encoder -/

theorem encFinish_fault {s : State} (h : s.enc.st ≠ .ready) : encFinish s = .fault (.encNotAdmitted s.enc.st) := by
  cases hst : s.enc.st with
  | ready => exact absurd hst h
  | unconf | inWrite | closed | error => simp [encFinish, hst]

/-- Settles O27: both levels of the shutdown are one operation. -/
theorem closeEmitsTheTerminationFrame : Obligations.CloseEmitsTheTerminationFrame := by
  intro i s hi
  have hfinish : exec i s = encFinish s := by rcases hi with rfl | rfl <;> rfl
  rw [hfinish]
  exact ⟨fun hready => encFinish_next.2 ⟨hready, rfl⟩, encFinish_fault⟩

end Sys2Proof.Machine
end

section
/-! The escaper and the unescaper (40_escaper.md R110 to R124): the table and the scan as equations, what they do to whole sequences, and
the two units' tokens against their calls. -/

namespace Sys2Proof.Machine

/-! ### The escape table -/

@[simp] theorem esc1_mark : esc1 Wire.MARK = [Wire.ESC, Wire.ESC_MARK] := rfl

@[simp] theorem esc1_esc : esc1 Wire.ESC = [Wire.ESC, Wire.ESC_ESC] := rfl

theorem esc1_other {b : Byte} (hm : b ≠ Wire.MARK) (he : b ≠ Wire.ESC) : esc1 b = [b] := by simp [esc1, hm, he]

/-- The three rows of the table (R110). -/
theorem esc1_cases (b : Byte) :
    (b = Wire.MARK ∧ esc1 b = [Wire.ESC, Wire.ESC_MARK]) ∨ (b = Wire.ESC ∧ esc1 b = [Wire.ESC, Wire.ESC_ESC]) ∨
      (b ≠ Wire.MARK ∧ b ≠ Wire.ESC ∧ esc1 b = [b]) := by
  by_cases hm : b = Wire.MARK
  · exact .inl ⟨hm, hm ▸ esc1_mark⟩
  · by_cases he : b = Wire.ESC
    · exact .inr (.inl ⟨he, he ▸ esc1_esc⟩)
    · exact .inr (.inr ⟨hm, he, esc1_other hm he⟩)

@[simp] theorem escape_nil : escape [] = [] := rfl

@[simp] theorem escape_cons (b : Byte) (s : List Byte) : escape (b :: s) = esc1 b ++ escape s := List.flatMap_cons

@[simp] theorem escape_append (l m : List Byte) : escape (l ++ m) = escape l ++ escape m := List.flatMap_append

/-- Settles O10: the table, and its concatenation over the bytes. -/
theorem escapeReplacesEachReservedByte : Obligations.EscapeReplacesEachReservedByte :=
  ⟨esc1_mark, esc1_esc, fun _ => esc1_other, escape_nil, escape_cons, rfl⟩

/-! ### The escaped sequence -/

theorem mark_notMem_esc1 (b : Byte) : Wire.MARK ∉ esc1 b := by
  rcases esc1_cases b with ⟨-, e⟩ | ⟨-, e⟩ | ⟨hm, -, e⟩ <;> rw [e]
  · decide
  · decide
  · exact mt List.mem_singleton.1 hm.symm

/-- R122 (a), which R81 needs: a payload closes no frame. -/
theorem mark_notMem_escape (s : List Byte) : Wire.MARK ∉ escape s := by
  intro h
  obtain ⟨b, -, hb⟩ := List.mem_flatMap.1 h
  exact mark_notMem_esc1 b hb

/-- A reserved byte costs one byte more (R122 (b)). -/
theorem length_esc1 (b : Byte) : (esc1 b).length = 1 + [b].count Wire.MARK + [b].count Wire.ESC := by
  rcases esc1_cases b with ⟨rfl, -⟩ | ⟨rfl, -⟩ | ⟨hm, he, e⟩
  · rfl
  · rfl
  · simp [e, hm, he]

theorem length_escape (s : List Byte) : (escape s).length = s.length + s.count Wire.MARK + s.count Wire.ESC := by
  induction s with
  | nil => rfl
  | cons b s ih =>
    simp only [escape_cons, List.length_append, length_esc1, ih, List.length_cons, List.count_cons, List.count_nil]
    omega

/-- Nothing is escaped where nothing is reserved; and where something is, the escaped sequence is longer (R122 (e)). -/
theorem escape_eq_self_iff (s : List Byte) : escape s = s ↔ Wire.MARK ∉ s ∧ Wire.ESC ∉ s := by
  constructor
  · intro h
    have hlen := length_escape s
    rw [h] at hlen
    exact ⟨List.count_eq_zero.1 (by omega), List.count_eq_zero.1 (by omega)⟩
  · rintro ⟨hm, he⟩
    calc s.flatMap esc1 = s.flatMap ([·]) := List.flatMap_congr fun b hb =>
          esc1_other (ne_of_mem_of_not_mem hb hm) (ne_of_mem_of_not_mem hb he)
      _ = s := List.flatMap_singleton' s

/-! ### The round trip -/

/-- A pair of the table is whole: no pair is open after it. -/
theorem escPending_esc1 (b : Byte) : escPending (esc1 b) = false := by
  rcases esc1_cases b with ⟨-, e⟩ | ⟨-, e⟩ | ⟨-, he, e⟩ <;> rw [e]
  · rfl
  · rfl
  · rw [escPending_cons _ he, escPending_nil]

theorem unescape_esc1 (b : Byte) : unescape (esc1 b) = [b] := by
  rcases esc1_cases b with ⟨rfl, -⟩ | ⟨rfl, -⟩ | ⟨-, he, e⟩
  · rfl
  · rfl
  · rw [e, unescape_cons _ he, unescape_nil]

/-- R121: the scan begins anew after the pair of every byte. -/
theorem unescape_escape (s : List Byte) : unescape (escape s) = s := by
  induction s with
  | nil => rfl
  | cons b s ih => rw [escape_cons, unescape_append (escPending_esc1 b), unescape_esc1, ih, List.singleton_append]

/-- Settles O13: the round trip; a malformed pair is lost for good. -/
theorem unescapeInvertsEscape : Obligations.UnescapeInvertsEscape := ⟨unescape_escape, by decide⟩

/-- Settles O14: the round trip makes `escape` injective, its length makes it the identity only where nothing is reserved. -/
theorem escapeProperties : Obligations.EscapeProperties :=
  ⟨mark_notMem_escape, length_escape, Function.LeftInverse.injective unescape_escape, rfl, escape_eq_self_iff⟩

/-! ### The unescaped sequence -/

theorem length_unesc2_le_one (x : Byte) : (unesc2 x).length ≤ 1 := by
  unfold unesc2
  split_ifs <;> decide

/-- R123 (a): a pair gives at most one byte. -/
theorem length_unescape_le (w : List Byte) : (unescape w).length ≤ w.length := by
  induction w using unescape.induct with
  | case1 => rfl
  | case2 => exact Nat.zero_le _
  | case3 b hb => rw [unescape_cons _ hb, unescape_nil]
  | case4 x w ih =>
    have hpair := length_unesc2_le_one x
    simp only [unescape_esc_cons, List.length_append, List.length_cons]
    omega
  | case5 b x w hb ih =>
    rw [unescape_cons _ hb]
    exact Nat.succ_le_succ ih

/-- R123 (b). -/
theorem unescape_eq_self {w : List Byte} (h : Wire.ESC ∉ w) : unescape w = w := by
  induction w with
  | nil => rfl
  | cons b w ih =>
    rw [unescape_cons _ (List.ne_of_not_mem_cons h).symm, ih (List.not_mem_of_not_mem_cons h)]

/-- Settles O15: the two laws of every sequence, and the spec's instances by evaluation. -/
theorem unescapeProperties : Obligations.UnescapeProperties :=
  ⟨length_unescape_le, fun _ => unescape_eq_self, by decide, by decide⟩

/-- Settles O16: the scan byte by byte. -/
theorem unescapeScansLeftToRight : Obligations.UnescapeScansLeftToRight :=
  ⟨rfl, rfl, fun _ => unesc2_bad, unescape_nil, fun _ w => unescape_cons w, fun x w => unescape_esc_cons w x, rfl⟩

/-! ### The unit `ESC` -/

/-- Settles O11: the state of each answer is written out. -/
theorem escUnitEmitsAndKeepsNoState : Obligations.EscUnitEmitsAndKeepsNoState :=
  fun _ => ⟨fun _ => rfl, rfl, fun _ => rfl⟩

theorem escBytes_append (xs ys : List Byte) : escBytes (xs ++ ys) = escBytes xs ++ escBytes ys := List.map_append

section
variable (s : State)

@[simp] theorem State.emitEsc_nil : s.emitEsc [] = s := by simp [State.emitEsc]

theorem State.emitEsc_emitEsc (ts us : List EscToken) : (s.emitEsc ts).emitEsc us = s.emitEsc (ts ++ us) := by
  simp [State.emitEsc, Out.emit_emit]

end

/-- The data tokens of a call emit what the bytes escape to. -/
theorem execAll_escBytes (l : List Byte) (is : List Instr) (s : State) :
    execAll (l.map .escByte ++ is) s = execAll is (s.emitEsc (escBytes (escape l))) := by
  induction l generalizing s with
  | nil => exact congrArg (execAll is) s.emitEsc_nil.symm
  | cons b l ih =>
    calc execAll ((b :: l).map .escByte ++ is) s
        = execAll (l.map .escByte ++ is) (s.emitEsc (escBytes (esc1 b))) := execAll_cons_next rfl
      _ = execAll is (s.emitEsc (escBytes (escape (b :: l)))) := by
          rw [ih, State.emitEsc_emitEsc, ← escBytes_append, escape_cons]

/-- Settles O12: the data tokens, then the closing one. -/
theorem escapeCallEqualsItsTokens : Obligations.EscapeCallEqualsItsTokens := by
  refine ⟨fun l s => ?_, escape_append⟩
  calc execAll (l.map .escByte ++ [.escEnd]) s
      = .next ((s.emitEsc (escBytes (escape l))).emitEsc [.close]) := execAll_escBytes l [.escEnd] s
    _ = exec (.escape l) s := congrArg _ (s.emitEsc_emitEsc _ _)

/-! ### The unit `UNESC` -/

/-- What a step of `UNESC` does: it emits some tokens, and a pair is open after it or not. -/
def State.unescGives (s : State) (ts : List EscToken) (pend : Bool) : State := (s.emitUnesc ts).setPend pend

section
variable {s : State}

theorem State.unescGives_nil (pend : Bool) : s.unescGives [] pend = s.setPend pend := by
  simp [State.unescGives, State.emitUnesc]

theorem State.setPend_self {pend : Bool} (h : s.unesc.pend = pend) : s.setPend pend = s := by
  subst h
  rfl

/-- Steps in order emit in order, and the last one says whether a pair is open. -/
theorem State.unescGives_unescGives (ts us : List EscToken) (p q : Bool) :
    (s.unescGives ts p).unescGives us q = s.unescGives (ts ++ us) q := by
  simp [State.unescGives, State.emitUnesc, State.setPend, Out.emit_emit]

variable {b : Byte}

/-! Each token, by what `UNESC.pend` is (R118, R120). -/

theorem exec_unescByte : exec (.unescByte b) s =
    .next (s.unescGives (escBytes (unescEmits s.unesc.pend b)) (pendNext s.unesc.pend b)) := rfl

theorem exec_unescByte_open (h : s.unesc.pend = false) : exec (.unescByte Wire.ESC) s = .next (s.unescGives [] true) := by
  rw [exec_unescByte, h]
  rfl

theorem exec_unescByte_copy (h : s.unesc.pend = false) (hb : b ≠ Wire.ESC) :
    exec (.unescByte b) s = .next (s.unescGives [.byte b] false) := by
  simp [exec_unescByte, h, unescEmits, pendNext, hb, beq_eq_false_iff_ne.2 hb, escBytes]

theorem exec_unescByte_pair (h : s.unesc.pend = true) :
    exec (.unescByte b) s = .next (s.unescGives (escBytes (unesc2 b)) false) := by
  rw [exec_unescByte, h]
  rfl

theorem exec_unescEnd : exec .unescEnd s = .next (s.unescGives [.close] false) := rfl

/-- A call, between calls and inside one (R115). -/
theorem exec_unescape {w : List Byte} (h : s.unesc.pend = false) :
    exec (.unescape w) s = .next (s.unescGives (escBytes (unescape w) ++ [.close]) false) := execUnescape_next.2 ⟨h, rfl⟩

theorem exec_unescape_midCall {w : List Byte} (h : s.unesc.pend = true) : exec (.unescape w) s = .fault .unescMidCall := if_pos h

end

/-- Settles O18: the three cases of a byte and the delimiter. -/
theorem unescTokensFollowPend : Obligations.UnescTokensFollowPend := by
  refine fun s => ⟨fun h => ?_, fun _ => exec_unescByte_copy, fun _ => exec_unescByte_pair, exec_unescEnd⟩
  rw [exec_unescByte_open h, State.unescGives_nil]
  rfl

/-- Settles O19: the two cases of `UNESC.pend`. -/
theorem unescapeCallRunsBetweenCalls : Obligations.UnescapeCallRunsBetweenCalls :=
  fun _ _ => ⟨exec_unescape, exec_unescape_midCall⟩

/-- The data tokens of a call emit what the bytes unescape to, and leave a pair open when the scan ends on one (R124). -/
theorem execAll_unescBytes (w : List Byte) (is : List Instr) {s : State} (h : s.unesc.pend = false) :
    execAll (w.map .unescByte ++ is) s = execAll is (s.unescGives (escBytes (unescape w)) (escPending w)) := by
  induction w using unescape.induct generalizing s with
  | case1 => exact congrArg (execAll is) ((s.unescGives_nil false).trans (State.setPend_self h)).symm
  | case2 => exact execAll_cons_next (exec_unescByte_open h)
  | case3 b hb =>
    rw [unescape_cons _ hb, escPending_cons _ hb]
    exact execAll_cons_next (exec_unescByte_copy h hb)
  | case4 x w ih =>
    calc execAll ((Wire.ESC :: x :: w).map .unescByte ++ is) s
        = execAll ((x :: w).map .unescByte ++ is) (s.unescGives [] true) := execAll_cons_next (exec_unescByte_open h)
      _ = execAll (w.map .unescByte ++ is) ((s.unescGives [] true).unescGives (escBytes (unesc2 x)) false) :=
          execAll_cons_next (exec_unescByte_pair rfl)
      _ = execAll is (s.unescGives (escBytes (unescape (Wire.ESC :: x :: w))) (escPending (Wire.ESC :: x :: w))) := by
          rw [ih rfl, State.unescGives_unescGives, State.unescGives_unescGives, List.nil_append, ← escBytes_append, unescape_esc_cons,
            escPending_esc_cons]
  | case5 b x w hb ih =>
    calc execAll ((b :: x :: w).map .unescByte ++ is) s
        = execAll ((x :: w).map .unescByte ++ is) (s.unescGives [.byte b] false) := execAll_cons_next (exec_unescByte_copy h hb)
      _ = execAll is (s.unescGives (escBytes (unescape (b :: x :: w))) (escPending (b :: x :: w))) := by
          rw [ih rfl, State.unescGives_unescGives, unescape_cons _ hb, escPending_cons _ hb]
          rfl

/-- Settles O20: the data tokens, then the closing one, which drops a pair left open as the call does. -/
theorem unescapeCallEqualsItsTokens : Obligations.UnescapeCallEqualsItsTokens := by
  refine ⟨fun w s h => ?_, by decide⟩
  calc execAll (w.map .unescByte ++ [.unescEnd]) s
      = .next ((s.unescGives (escBytes (unescape w)) (escPending w)).unescGives [.close] false) :=
        execAll_unescBytes w [.unescEnd] h
    _ = .next (s.unescGives (escBytes (unescape w) ++ [.close]) false) := congrArg _ (State.unescGives_unescGives _ _ _ _)
    _ = exec (.unescape w) s := (exec_unescape h).symm

end Sys2Proof.Machine
end

section
/-! The frame encoder (41_encoder.md R131 to R149): when a construction is not admitted, the initialisation frames, the payload tokens, and
a write against its frame and against its tokens. -/

namespace Sys2Proof.Machine

open Safety

/-! ### Operations not admitted in a state -/

section
variable {s : State}

theorem execEncOpen_fault (cfg : EncCfg) (h : s.enc.st ≠ .unconf) : execEncOpen cfg s = .fault (.openNotUnconf s.enc.st) := by
  cases hst : s.enc.st with
  | unconf => exact absurd hst h
  | ready | inWrite | closed | error => simp [execEncOpen, hst]

theorem execEncWrite_fault (p : List Byte) (h : s.enc.st ≠ .ready) : execEncWrite p s = .fault (.encNotAdmitted s.enc.st) := by
  cases hst : s.enc.st with
  | ready => exact absurd hst h
  | unconf | inWrite | closed | error => simp [execEncWrite, hst]

theorem execEncByte_fault (b : Byte) (hr : s.enc.st ≠ .ready) (hw : s.enc.st ≠ .inWrite) :
    execEncByte b s = .fault (.encNotAdmitted s.enc.st) := by
  cases hst : s.enc.st with
  | ready => exact absurd hst hr
  | inWrite => exact absurd hst hw
  | unconf | closed | error => simp [execEncByte, hst]

theorem execEncEow_fault (hr : s.enc.st ≠ .ready) (hw : s.enc.st ≠ .inWrite) :
    execEncEow s = .fault (.encNotAdmitted s.enc.st) := by
  cases hst : s.enc.st with
  | ready => exact absurd hst hr
  | inWrite => exact absurd hst hw
  | unconf | closed | error => simp [execEncEow, hst]

end

/-! ### A construction that fails or is not admitted -/

theorem validPort_eq_none {port : Option Byte} (h : port = none ∨ ∃ v, port = some v ∧ 15 < v.toNat) : validPort port = none := by
  rcases h with rfl | ⟨v, rfl, hv⟩
  · rfl
  · exact if_neg (Nat.not_le.2 hv)

/-- Settles O21: the port test fails, and `ConfigError` is taken before any other field is looked at. -/
theorem openWithoutValidPortTakesConfigError : Obligations.OpenWithoutValidPortTakesConfigError :=
  fun _ _ hst hport => execEncOpen_next.2 ⟨hst, .inl ⟨validPort_eq_none hport, rfl⟩⟩

section
variable {cfg : EncCfg}

theorem timeFits_iff {field : Option Millis} : timeFits field = true ↔ ∀ ms, field = some ms → ms.toNat ≤ 2559 := by
  cases field <;> simp [timeFits]

theorem timesFit_iff : timesFit cfg = true ↔
    ∀ ms, cfg.slot = some ms ∨ cfg.txd = some ms ∨ cfg.txt = some ms → ms.toNat ≤ 2559 := by
  simp only [timesFit, Bool.and_eq_true, timeFits_iff, or_imp, forall_and, and_assoc]

theorem hwFits_eq_false {hwMax : Option Nat} {m : Nat} {hw : List Byte} (hmax : hwMax = some m) (hcfg : cfg.hw = some hw)
    (hlen : m < hw.length) : hwFits hwMax cfg = false := by
  simp [hwFits, hmax, hcfg, hlen]

variable {s : State} {port : Nibble} (hst : s.enc.st = .unconf) (hport : validPort cfg.port = some port)
include hst hport

theorem execEncOpen_timeRange (ht : timesFit cfg = false) : execEncOpen cfg s = .fault .openTimeRange := by
  simp [execEncOpen, hst, hport, ht]

theorem execEncOpen_hwLength (ht : timesFit cfg = true) (hhw : hwFits s.params.hwMax cfg = false) :
    execEncOpen cfg s = .fault .openHwLength := by
  simp [execEncOpen, hst, hport, ht, hhw]

end

/-- Settles O24: the state, then the times, then the hardware field. -/
theorem openIsNotAdmittedOutsideItsRanges : Obligations.OpenIsNotAdmittedOutsideItsRanges := by
  refine fun cfg s => ⟨execEncOpen_fault cfg, fun v hst hv hle => ?_⟩
  have hport : validPort cfg.port = some (v.setWidth 4) := hv ▸ validPort_of_le hle
  constructor
  · rintro ⟨ms, hms, hlt⟩
    exact execEncOpen_timeRange hst hport (Bool.eq_false_iff.2 fun ht => (timesFit_iff.1 ht ms hms).not_gt hlt)
  · rintro htimes ⟨m, hw, hmax, hcfg, hlen⟩
    exact execEncOpen_hwLength hst hport (timesFit_iff.2 htimes) (hwFits_eq_false hmax hcfg hlen)

/-! ### The initialisation frames -/

/-- The quotient of a time in range fits a byte (R90). -/
theorem timeValue_toNat {v : Millis} (h : v.toNat ≤ 2559) : (timeValue v).toNat = v.toNat / 10 := by
  simp only [timeValue, Config.TICK_MS, BitVec.toNat_ofNat]
  omega

section
variable (command : Byte) {field : Option Millis}

/-- The frame of a time field that is sent (R135 to R137). -/
theorem timeFrame_present {v : Millis} (hv : v ≠ 0#12) (h : field = some v) :
    fieldFrame command (timeBytes field) = [Wire.MARK, command, timeValue v, Wire.MARK] := by
  simp [h, timeBytes, hv, fieldFrame, commandFrame]

/-- A time field of 0 is not sent (D9). -/
theorem timeFrame_absent (h : field = none ∨ field = some 0#12) : fieldFrame command (timeBytes field) = [] := by
  rcases h with rfl | rfl <;> rfl

end

/-- Settles O23: the frame of each field by what the record holds; the three time fields are one case. -/
theorem initFramesCarryTheirValueBytes : Obligations.InitFramesCarryTheirValueBytes := by
  intro c cfg
  refine ⟨⟨fun h => ?_, fun h => ?_, fun h => ?_⟩, ⟨fun hw h => ?_, fun h => ?_⟩, ⟨fun v h => ?_, fun h => ?_⟩,
    fun v hv hle => ⟨timeValue v, timeValue_toNat hle, timeFrame_present _ hv, timeFrame_present _ hv, timeFrame_present _ hv⟩,
    timeFrame_absent _, timeFrame_absent _, timeFrame_absent _⟩
  all_goals rw [initFrame, h]; rfl

/-! ### The payload tokens -/

section
variable {s : State}

theorem exec_encByte_ready (b : Byte) (h : s.enc.st = .ready) :
    exec (.encByte b) s = .next ((s.emitEnc (s.enc.pre.bytes ++ esc1 b)).setEncSt .inWrite) := execEncByte_next.2 (.inl ⟨h, rfl⟩)

theorem exec_encByte_inWrite (b : Byte) (h : s.enc.st = .inWrite) : exec (.encByte b) s = .next (s.emitEnc (esc1 b)) :=
  execEncByte_next.2 (.inr ⟨h, rfl⟩)

theorem exec_encEow_ready (h : s.enc.st = .ready) : exec .encEow s = .next (s.emitEnc (s.enc.pre.bytes ++ [Wire.MARK])) :=
  execEncEow_next.2 (.inl ⟨h, rfl⟩)

theorem exec_encEow_inWrite (h : s.enc.st = .inWrite) : exec .encEow s = .next ((s.emitEnc [Wire.MARK]).setEncSt .ready) :=
  execEncEow_next.2 (.inr ⟨h, rfl⟩)

end

/-- Settles O28: each token in each of the states that admit it, and in the others. -/
theorem encoderTokensFollowTheTransitionTable : Obligations.EncoderTokensFollowTheTransitionTable := fun b _ =>
  ⟨fun h => ⟨exec_encByte_ready b h, exec_encEow_ready h⟩, fun h => ⟨exec_encByte_inWrite b h, exec_encEow_inWrite h⟩,
    fun hr hw => ⟨execEncByte_fault b hr hw, execEncEow_fault hr hw⟩⟩

/-! ### A write and its frame -/

/-- The frame of R82, from the registers a construction leaves. -/
theorem dataFrame_of_regsAgree {e : Enc} (h : RegsAgree e) (p : List Byte) :
    e.dataFrame p = [Wire.MARK, cmdByte e.port 0#4] ++ escape p ++ [Wire.MARK] := by
  rw [Enc.dataFrame, pre_bytes_of_regsAgree h, Enc.endm]

theorem dataCommand_toNat (port : Nibble) : (cmdByte port 0#4).toNat = 16 * port.toNat := cmdByte_toNat port 0#4

theorem exec_encWrite {s : State} (hst : s.enc.st = .ready) (p : List Byte) :
    exec (.encWrite p) s = .next (s.emitEnc (s.enc.dataFrame p)) := execEncWrite_next.2 ⟨hst, rfl⟩

/-- Settles O25: a write emits the data frame, which the registers make the frame of R82. -/
theorem writeEmitsExactlyOneFrame : Obligations.WriteEmitsExactlyOneFrame := by
  refine fun p s => ⟨fun hst hregs => ⟨_, dataCommand_toNat s.enc.port, ?_⟩, execEncWrite_fault p, rfl⟩
  rw [exec_encWrite hst, dataFrame_of_regsAgree hregs]
  rfl

theorem State.emitEnc_emitEnc (s : State) (bs cs : List Byte) : (s.emitEnc bs).emitEnc cs = s.emitEnc (bs ++ cs) := by
  simp [State.emitEnc, Out.emit_emit]

/-- Settles O26: the first write leaves the state and the registers that the second one needs. -/
theorem writesAreNeverCoalesced : Obligations.WritesAreNeverCoalesced := by
  intro p q s hst hregs
  refine ⟨_, dataCommand_toNat s.enc.port, ?_⟩
  have second : exec (.encWrite q) (s.emitEnc (s.enc.dataFrame p)) =
      .next ((s.emitEnc (s.enc.dataFrame p)).emitEnc (s.enc.dataFrame q)) := exec_encWrite (by exact hst) q
  rw [execAll_cons_next (exec_encWrite hst p), execAll_cons_next second, State.emitEnc_emitEnc, dataFrame_of_regsAgree hregs,
    dataFrame_of_regsAgree hregs]
  simp [execAll, State.emitEnc, Out.emit]

/-! ### A write and its tokens -/

/-- Inside a write, the payload tokens emit what their bytes escape to. -/
theorem execAll_encBytes (p : List Byte) (is : List Instr) {s : State} (h : s.enc.st = .inWrite) :
    execAll (p.map .encByte ++ is) s = execAll is (s.emitEnc (escape p)) := by
  induction p generalizing s with
  | nil => rw [escape_nil, State.emitEnc, Out.emit_nil]; rfl
  | cons b p ih =>
    calc execAll ((b :: p).map .encByte ++ is) s
        = execAll (p.map .encByte ++ is) (s.emitEnc (esc1 b)) := execAll_cons_next (exec_encByte_inWrite b h)
      _ = execAll is (s.emitEnc (escape (b :: p))) := by
          rw [ih (s := s.emitEnc (esc1 b)) h, State.emitEnc_emitEnc, escape_cons]

/-- The rest of a write inside its frame. -/
theorem execAll_encBytes_eow (p : List Byte) {s : State} (h : s.enc.st = .inWrite) :
    execAll (p.map .encByte ++ [.encEow]) s = .next ((s.emitEnc (escape p ++ [Wire.MARK])).setEncSt .ready) := by
  have eow := exec_encEow_inWrite (s := s.emitEnc (escape p)) h
  rw [execAll_encBytes p _ h, execAll_cons_next eow, State.emitEnc_emitEnc]
  rfl

/-- A frame opened in `READY` and closed again is one emission. -/
theorem State.emitEnc_openThenClose {s : State} (h : s.enc.st = .ready) (bs cs : List Byte) :
    (((s.emitEnc bs).setEncSt .inWrite).emitEnc cs).setEncSt .ready = s.emitEnc (bs ++ cs) := by
  simp [State.emitEnc, State.setEncSt, Out.emit_emit, h]

/-- Settles O29: an empty write is its `EOW`; otherwise the first byte opens the frame and the other tokens complete it. -/
theorem writeEqualsItsTokens : Obligations.WriteEqualsItsTokens := by
  intro p s hst
  rw [exec_encWrite hst]
  cases p with
  | nil => exact execAll_cons_next (exec_encEow_ready hst)
  | cons b p =>
    have frame : (s.enc.pre.bytes ++ esc1 b) ++ (escape p ++ [Wire.MARK]) = s.enc.dataFrame (b :: p) := by
      simp [Enc.dataFrame, Enc.endm]
    calc execAll ((b :: p).map .encByte ++ [.encEow]) s
        = execAll (p.map .encByte ++ [.encEow]) ((s.emitEnc (s.enc.pre.bytes ++ esc1 b)).setEncSt .inWrite) :=
          execAll_cons_next (exec_encByte_ready b hst)
      _ = .next ((((s.emitEnc (s.enc.pre.bytes ++ esc1 b)).setEncSt .inWrite).emitEnc (escape p ++ [Wire.MARK])).setEncSt .ready) :=
          execAll_encBytes_eow p rfl
      _ = .next (s.emitEnc (s.enc.dataFrame (b :: p))) := by rw [State.emitEnc_openThenClose hst, frame]

end Sys2Proof.Machine
end

section
/-! The decoder at both levels (42_decoder.md R161 to R181): one byte, the end of the stream and the message of a run; then the chunk as
its bytes taken one after another, and from that what a chunk does whole, cut in two, overflowing, and fed what a write emits. -/

namespace Sys2Proof.Machine

/-! ### The message of a run -/

/-- What stands before the data of a message (R167 to R169). -/
def messageHead (ecb eob : Bool) (cmd : Byte) : List DecToken :=
  if eob then [.hdr (portOf cmd)] else if ecb then [.byte cmd] else []

theorem message_cons (ecb eob : Bool) (cmd : Byte) (content : List Byte) :
    message ecb eob (cmd :: content) = messageHead ecb eob cmd ++ (unescape content).map .byte ++ [.eom] := by
  cases ecb <;> cases eob <;> rfl

theorem portOf_toNat (b : Byte) : (portOf b).toNat = b.toNat / 16 := by
  have hnibbles := toNat_eq_portOf_kindOf b
  have hkind := (kindOf b).isLt
  omega

/-- Settles O36: the three heads. -/
theorem messageShapeFollowsTheMode : Obligations.MessageShapeFollowsTheMode := fun cmd content =>
  ⟨message_cons false false cmd content, message_cons true false cmd content,
    fun ecb => ⟨portOf cmd, portOf_toNat cmd, message_cons ecb true cmd content⟩⟩

/-- Settles O37: the data are byte tokens, so `EOM` is only the last token and a header only the head. -/
theorem messageHasOneEomAndItsHeader : Obligations.MessageHasOneEomAndItsHeader := by
  intro ecb eob run hrun
  obtain ⟨cmd, content, rfl⟩ := List.exists_cons_of_ne_nil hrun
  rw [message_cons]
  have heom : (messageHead ecb eob cmd).count .eom = 0 := by cases ecb <;> cases eob <;> rfl
  refine ⟨?_, List.getLast?_concat, ?_, ?_⟩
  · simp [heom, List.count_eq_zero]
  · rintro rfl
    exact ⟨portOf cmd, rfl⟩
  · cases ecb <;> cases eob <;> simp [messageHead, Function.comp_def]

/-! ### One byte, and the end of the stream -/

/-- Settles O32: the three cases of the intake in which nothing overflows. -/
theorem decoderByteClosesOrAppends : Obligations.DecoderByteClosesOrAppends := by
  refine fun b s he ho => ⟨?_, ?_, decIntake_append he ho⟩
  · rintro rfl hbuf
    exact decIntake_mark_idle he ho hbuf
  · rintro rfl hbuf
    exact decIntake_mark_accum he ho hbuf

/-- Settles O38: both forms of the end of the stream are one operation, which closes the run as a boundary does. -/
theorem endOfStreamFlushesTheBuffer : Obligations.EndOfStreamFlushesTheBuffer := by
  intro i s he ho hi
  have hfinish : exec i s = .next s.closeRun.setEnded := by
    rcases hi with rfl | rfl <;> exact decFinish_next.2 ⟨he, ho, rfl⟩
  refine ⟨fun hbuf => ?_, fun hbuf => ?_, whenDecAdmits_of_admitting s he ho⟩
  · rw [hfinish, State.closeRun, if_pos hbuf]
    rfl
  · rw [hfinish, State.closeRun, if_neg hbuf]
    rfl

/-- Settles O39: every row and operation of the decoder has the one admission test. -/
theorem endedOrFaultedDecoderAdmitsNothing : Obligations.EndedOrFaultedDecoderAdmitsNothing := by
  intro i s hstop hi
  rcases hi with hwire | ⟨b, rfl⟩ | ⟨c, rfl⟩ | rfl | rfl | rfl
  · obtain ⟨b, hb⟩ := Option.ne_none_iff_exists'.1 hwire
    rw [exec_of_wireByte hb]
    exact whenDecAdmits_fault _ hstop
  all_goals exact whenDecAdmits_fault _ hstop

/-! ### The three steps of a chunk are one scan -/

/-- The scan reads the buffer and a candidate run only as the run they make together. -/
theorem chunkStep2_moveBuf (c buf : List Byte) {run : List Byte} (hrun : run ≠ []) :
    (chunkStep2 buf run c).1 = (chunkStep2 [] (buf ++ run) c).1 ∧
      (chunkStep2 buf run c).2.1 ++ (chunkStep2 buf run c).2.2 =
        (chunkStep2 [] (buf ++ run) c).2.1 ++ (chunkStep2 [] (buf ++ run) c).2.2 := by
  induction c generalizing run with
  | nil => exact ⟨rfl, rfl⟩
  | cons b c ih =>
    by_cases hb : b = Wire.MARK
    · subst hb
      rw [chunkStep2_mark c buf hrun, chunkStep2_mark c [] (List.append_ne_nil_of_right_ne_nil buf hrun)]
      exact ⟨rfl, rfl⟩
    · rw [chunkStep2_content c buf run hb, chunkStep2_content c [] (buf ++ run) hb, List.append_assoc]
      exact ih (List.append_ne_nil_of_right_ne_nil run (List.cons_ne_nil b []))

/-- Steps 1 to 3 of R161 are one scan whose candidate run begins with the buffer. -/
theorem chunkRuns_eq_scan (buf c : List Byte) :
    chunkRuns buf c = ((chunkStep2 [] buf c).1, (chunkStep2 [] buf c).2.1 ++ (chunkStep2 [] buf c).2.2) := by
  by_cases hbuf : buf = []
  · simp [chunkRuns, chunkStep1, hbuf]
  · cases c with
    | nil => simp [chunkRuns, chunkStep1, chunkStep2]
    | cons b c =>
      by_cases hb : b = Wire.MARK
      · subst hb
        simp [chunkRuns, chunkStep1, hbuf, chunkStep2_mark_empty, chunkStep2_mark]
      · have hmove := chunkStep2_moveBuf c buf (List.cons_ne_nil b [])
        simp [chunkRuns, chunkStep1, hb, chunkStep2_content, hmove]

section
variable (buf c : List Byte)

theorem chunkRuns_nil : chunkRuns buf [] = ([], buf) := by simp [chunkRuns_eq_scan, chunkStep2]

/-- A boundary closes the buffered run, if there is one (R162, R163). -/
theorem chunkRuns_mark :
    chunkRuns buf (Wire.MARK :: c) = ([buf].filter (· != []) ++ (chunkRuns [] c).1, (chunkRuns [] c).2) := by
  by_cases hbuf : buf = []
  · simp [chunkRuns_eq_scan, hbuf, chunkStep2_mark_empty]
  · simp [chunkRuns_eq_scan, hbuf, chunkStep2_mark]

theorem chunkRuns_content {b : Byte} (hb : b ≠ Wire.MARK) : chunkRuns buf (b :: c) = chunkRuns (buf ++ [b]) c := by
  simp [chunkRuns_eq_scan, chunkStep2_content _ _ _ hb]

end

/-! ### A chunk is its bytes taken one after another -/

/-- Closing some runs, each emitted as its message, and buffering a content: `Dec.closeRuns` on the block. -/
def State.closeRuns (s : State) (runs : List (List Byte)) (buf : List Byte) : State :=
  { s with dec := s.dec.closeRuns runs buf }

section
variable (s : State)

@[simp] theorem State.closeRuns_params (runs : List (List Byte)) (buf : List Byte) : (s.closeRuns runs buf).params = s.params := rfl
@[simp] theorem State.closeRuns_dec_buf (runs : List (List Byte)) (buf : List Byte) : (s.closeRuns runs buf).dec.buf = buf := rfl
@[simp] theorem State.closeRuns_dec_ended (runs : List (List Byte)) (buf : List Byte) :
    (s.closeRuns runs buf).dec.ended = s.dec.ended := rfl
@[simp] theorem State.closeRuns_dec_ovf (runs : List (List Byte)) (buf : List Byte) :
    (s.closeRuns runs buf).dec.ovf = s.dec.ovf := rfl

@[simp] theorem State.closeRuns_none : s.closeRuns [] s.dec.buf = s := by simp [State.closeRuns]

theorem State.closeRuns_closeRuns (rs qs : List (List Byte)) (buf buf' : List Byte) :
    (s.closeRuns rs buf).closeRuns qs buf' = s.closeRuns (rs ++ qs) buf' := by
  simp [State.closeRuns, Dec.closeRuns, Out.emit_emit]

theorem State.bufAppend_eq_closeRuns (b : Byte) : s.bufAppend b = s.closeRuns [] (s.dec.buf ++ [b]) := by
  simp [State.bufAppend, State.setBuf, State.closeRuns, Dec.closeRuns]

theorem State.closeRun_eq_closeRuns : s.closeRun = s.closeRuns ([s.dec.buf].filter (· != [])) [] := by
  rcases s.closeRun_cases with ⟨hbuf, e⟩ | ⟨hbuf, e⟩
  · simpa [e, hbuf] using s.closeRuns_none.symm
  · simp [e, hbuf, State.closeRuns, Dec.closeRuns, State.emitDec, State.setBuf]

theorem State.takeChunk_eq (c : List Byte) :
    let fitting := chunkFitting s.params.bufCap s.dec.buf.length c
    let t := s.closeRuns (chunkRuns s.dec.buf fitting.1).1 (chunkRuns s.dec.buf fitting.1).2
    s.takeChunk c = if fitting.2 then t.raiseBufOverflow else t := rfl

@[simp] theorem State.takeChunk_nil : s.takeChunk [] = s := by
  simp [State.takeChunk_eq, chunkFitting, chunkRuns_nil]

theorem State.takeChunk_mark (c : List Byte) : s.takeChunk (Wire.MARK :: c) = s.closeRun.takeChunk c := by
  simp [State.takeChunk_eq, chunkFitting, chunkRuns_mark, State.closeRun_eq_closeRuns, State.closeRuns_closeRuns]

variable (c : List Byte) {b : Byte} (hb : b ≠ Wire.MARK)
include hb

theorem State.takeChunk_fits (hfits : fits s.params.bufCap s.dec.buf.length = true) :
    s.takeChunk (b :: c) = (s.bufAppend b).takeChunk c := by
  simp [State.takeChunk_eq, chunkFitting, hb, hfits, chunkRuns_content, State.bufAppend_eq_closeRuns, State.closeRuns_closeRuns]

theorem State.takeChunk_full (hfull : fits s.params.bufCap s.dec.buf.length = false) :
    s.takeChunk (b :: c) = s.raiseBufOverflow := by
  simp [State.takeChunk_eq, chunkFitting, hb, hfull, chunkRuns_nil]

end

section
variable {s : State}

@[simp] theorem State.takeByte_dec_ended (b : Byte) : (s.takeByte b).dec.ended = s.dec.ended := by
  rcases s.takeByte_cases b with ⟨-, e⟩ | ⟨-, -, e⟩ | ⟨-, -, e⟩
  · rw [e, State.closeRun_eq_closeRuns, State.closeRuns_dec_ended]
  · rw [e, State.bufAppend_dec_ended]
  · rw [e, State.raiseBufOverflow_dec_ended]

@[simp] theorem State.takeChunk_params (c : List Byte) : (s.takeChunk c).params = s.params := by
  rcases s.takeChunk_cases c with ⟨-, e⟩ | ⟨-, e⟩ <;> rw [e] <;> rfl

/-- R176: the first byte of a chunk is taken as `DEC.BYTE` takes it; an overflow ends the chunk (log 13). -/
theorem State.takeChunk_cons (ho : s.dec.ovf = false) (b : Byte) (c : List Byte) :
    s.takeChunk (b :: c) = if (s.takeByte b).dec.ovf then s.takeByte b else (s.takeByte b).takeChunk c := by
  rcases s.takeByte_cases b with ⟨rfl, e⟩ | ⟨hb, hfits, e⟩ | ⟨hb, hfull, e⟩
  · simp [e, State.closeRun_eq_closeRuns, ho, State.takeChunk_mark]
  · simp [e, ho, s.takeChunk_fits c hb hfits]
  · simp [e, s.takeChunk_full c hb hfull]

/-- R177: where the first part of a chunk does not overflow, the second part is taken after it. -/
theorem State.takeChunk_append (c d : List Byte) (ho : s.dec.ovf = false) (hc : (s.takeChunk c).dec.ovf = false) :
    s.takeChunk (c ++ d) = (s.takeChunk c).takeChunk d := by
  induction c generalizing s with
  | nil => simp
  | cons b c ih =>
    rw [State.takeChunk_cons ho] at hc
    rw [List.cons_append, State.takeChunk_cons ho, State.takeChunk_cons ho]
    by_cases hovf : (s.takeByte b).dec.ovf = true
    · simp [hovf] at hc
    · rw [if_neg hovf] at hc
      rw [if_neg hovf, if_neg hovf]
      exact ih (Bool.eq_false_iff.2 hovf) hc

theorem exec_decChunk_next {c : List Byte} {t : State} :
    exec (.decChunk c) s = .next t ↔ s.dec.ended = false ∧ s.dec.ovf = false ∧ t = s.takeChunk c := whenDecAdmits_next _ _ _

theorem exec_decByte (he : s.dec.ended = false) (ho : s.dec.ovf = false) (b : Byte) :
    exec (.decByte b) s = .next (s.takeByte b) := decIntake_of_admitting he ho

theorem exec_decCend (he : s.dec.ended = false) (ho : s.dec.ovf = false) : exec .decCend s = .next s :=
  whenDecAdmits_of_admitting s he ho

theorem execAll_cons_eq_next {i : Instr} {is : List Instr} {t : State} :
    execAll (i :: is) s = .next t ↔ ∃ u, exec i s = .next u ∧ execAll is u = .next t := by
  cases h : exec i s <;> simp [execAll, h]

/-- The tokens of a chunk, its `CEND` included, do not complete in a decoder that has overflowed. -/
theorem execAll_chunkTokens_ne_next (c : List Byte) (t : State) (ho : s.dec.ovf = true) :
    execAll (c.map .decByte ++ [.decCend]) s ≠ .next t := by
  intro h
  have hadmits : s.dec.ovf = false := by
    cases c with
    | nil =>
      obtain ⟨_, hcend, -⟩ := execAll_cons_eq_next.1 h
      obtain ⟨-, hovf, -⟩ := (whenDecAdmits_next _ _ _).1 hcend
      exact hovf
    | cons b c =>
      obtain ⟨_, hbyte, -⟩ := execAll_cons_eq_next.1 h
      obtain ⟨-, hovf, -⟩ := decIntake_next.1 hbyte
      exact hovf
  cases ho.symm.trans hadmits

end

/-- Settles O41: token by token, and once a token overflows neither side holds. -/
theorem chunkEqualsItsTokens : Obligations.ChunkEqualsItsTokens := by
  intro c s t he ho
  rw [exec_decChunk_next]
  induction c generalizing s with
  | nil =>
    rw [State.takeChunk_nil, List.map_nil, List.nil_append, execAll_cons_next (exec_decCend he ho)]
    constructor
    · intro h
      cases h
      exact ⟨⟨he, ho, rfl⟩, ho⟩
    · rintro ⟨⟨-, -, rfl⟩, -⟩
      rfl
  | cons b c ih =>
    rw [List.map_cons, List.cons_append, execAll_cons_next (exec_decByte he ho b), State.takeChunk_cons ho]
    by_cases hovf : (s.takeByte b).dec.ovf = true
    · rw [if_pos hovf]
      refine iff_of_false (execAll_chunkTokens_ne_next c t hovf) ?_
      rintro ⟨⟨-, -, rfl⟩, ht⟩
      exact Bool.false_ne_true (ht.symm.trans hovf)
    · rw [if_neg hovf]
      rw [Bool.not_eq_true] at hovf
      rw [ih _ (by rwa [State.takeByte_dec_ended]) hovf]
      simp [he, ho, hovf]

/-- Settles O42: the chunk of both parts takes the first part and then the second. -/
theorem chunkSplitInvariance : Obligations.ChunkSplitInvariance := by
  intro c d s t u hboth hc ht
  rw [execAll_cons_next hc] at hboth
  obtain ⟨v, hd, hv⟩ := execAll_cons_eq_next.1 hboth
  obtain ⟨he, ho, rfl⟩ := exec_decChunk_next.1 hc
  obtain ⟨-, -, rfl⟩ := exec_decChunk_next.1 hd
  cases hv
  exact exec_decChunk_next.2 ⟨he, ho, (State.takeChunk_append c d ho ht).symm⟩

/-- Settles O57: the shorter chunk leaves the buffer full, so the next byte overflows and the rest is not taken. -/
theorem overflowingChunkKeepsEarlierMessages : Obligations.OverflowingChunkKeepsEarlierMessages := by
  intro c d b s t cap hcap hb hc ht hlen
  obtain ⟨he, ho, rfl⟩ := exec_decChunk_next.1 hc
  have hfull : fits (s.takeChunk c).params.bufCap (s.takeChunk c).dec.buf.length = false := by simpa [fits, hcap] using hlen
  refine ⟨(s.takeChunk c).raiseBufOverflow, exec_decChunk_next.2 ⟨he, ho, ?_⟩, rfl, rfl⟩
  rw [State.takeChunk_append c (b :: d) ho ht, State.takeChunk_full _ d hb hfull]

/-! ### The runs of a chunk are the pieces between its markers -/

/-- The runs that the boundaries of a byte sequence close, and the run that is left open. -/
def closedRuns (w : List Byte) : List (List Byte) := (w.splitOn Wire.MARK).dropLast.filter (· != [])
def openRun (w : List Byte) : List Byte := (w.splitOn Wire.MARK).getLastD []

section
variable {run : List Byte} (hrun : Wire.MARK ∉ run)
include hrun

theorem closedRuns_run : closedRuns run = [] := by simp [closedRuns, List.splitOn_eq_singleton hrun]

theorem openRun_run : openRun run = run := by simp [openRun, List.splitOn_eq_singleton hrun]

theorem closedRuns_mark (c : List Byte) : closedRuns (run ++ Wire.MARK :: c) = [run].filter (· != []) ++ closedRuns c := by
  rw [closedRuns, List.splitOn_append_cons_self_of_not_mem hrun, List.dropLast_cons_of_ne_nil (List.splitOn_ne_nil _ _)]
  exact List.filter_append [run] _

theorem openRun_mark (c : List Byte) : openRun (run ++ Wire.MARK :: c) = openRun c := by
  obtain ⟨piece, pieces, hc⟩ := List.exists_cons_of_ne_nil (List.splitOn_ne_nil Wire.MARK c)
  rw [openRun, openRun, List.splitOn_append_cons_self_of_not_mem hrun, hc]
  rfl

/-- The bytes before the first boundary belong to one piece. -/
theorem exists_piece_of_run (c : List Byte) : ∃ piece ∈ (run ++ c).splitOn Wire.MARK, run.length ≤ piece.length := by
  induction c generalizing run with
  | nil => exact ⟨run, by simp [List.splitOn_eq_singleton hrun], le_rfl⟩
  | cons b c ih =>
    by_cases hb : b = Wire.MARK
    · subst hb
      exact ⟨run, by simp [List.splitOn_append_cons_self_of_not_mem hrun], le_rfl⟩
    · obtain ⟨piece, hmem, hlen⟩ := ih (run := run ++ [b]) (by simp [hrun, Ne.symm hb])
      rw [List.append_assoc] at hmem
      rw [List.length_append] at hlen
      exact ⟨piece, hmem, Nat.le_of_succ_le hlen⟩

end

/-- Every run of a byte sequence fits the buffer. -/
def RunsFit (bufCap : Option Nat) (w : List Byte) : Prop :=
  ∀ cap, bufCap = some cap → ∀ r ∈ w.splitOn Wire.MARK, r.length ≤ cap

/-- Then a byte of a run still has room behind the bytes before it. -/
theorem RunsFit.fits {s : State} {b : Byte} {c : List Byte} (hbuf : Wire.MARK ∉ s.dec.buf) (hb : b ≠ Wire.MARK)
    (h : RunsFit s.params.bufCap (s.dec.buf ++ b :: c)) : fits s.params.bufCap s.dec.buf.length = true := by
  refine (fits_iff _ _).2 fun cap hcap => ?_
  obtain ⟨piece, hmem, hlen⟩ := exists_piece_of_run (run := s.dec.buf ++ [b]) (by simp [hbuf, Ne.symm hb]) c
  rw [List.append_assoc] at hmem
  rw [List.length_append] at hlen
  exact Nat.lt_of_lt_of_le hlen (h cap hcap piece hmem)

/-- R161, R175: a chunk whose runs fit closes the runs before its boundaries and leaves the last one open. -/
theorem State.takeChunk_of_runsFit (c : List Byte) {s : State} (hbuf : Wire.MARK ∉ s.dec.buf)
    (hfit : RunsFit s.params.bufCap (s.dec.buf ++ c)) :
    s.takeChunk c = s.closeRuns (closedRuns (s.dec.buf ++ c)) (openRun (s.dec.buf ++ c)) := by
  induction c generalizing s with
  | nil => simp [closedRuns_run hbuf, openRun_run hbuf]
  | cons b c ih =>
    by_cases hb : b = Wire.MARK
    · subst hb
      have hrest : RunsFit s.params.bufCap c := fun cap hcap r hr =>
        hfit cap hcap r (by rw [List.splitOn_append_cons_self_of_not_mem hbuf]; exact List.mem_cons_of_mem _ hr)
      have hclosed := ih (s := s.closeRuns ([s.dec.buf].filter (· != [])) []) List.not_mem_nil hrest
      rw [State.takeChunk_mark, State.closeRun_eq_closeRuns, hclosed, State.closeRuns_closeRuns, closedRuns_mark hbuf,
        openRun_mark hbuf]
      rfl
    · have happended := ih (s := s.bufAppend b) (by simp [hbuf, Ne.symm hb]) (by simpa using hfit)
      rw [s.takeChunk_fits c hb (hfit.fits hbuf hb), happended, State.bufAppend_eq_closeRuns, State.closeRuns_closeRuns]
      simp

/-- Settles O40: the state of the answer, written out. -/
theorem chunkEmitsItsClosedNonEmptyRuns : Obligations.ChunkEmitsItsClosedNonEmptyRuns :=
  fun c _ he ho hbuf hfit => exec_decChunk_next.2 ⟨he, ho, (State.takeChunk_of_runsFit c hbuf hfit).symm⟩

/-! ### What a write emits, decoded -/

/-- A frame is one run between two boundaries. -/
theorem splitOn_frame {run : List Byte} (hrun : Wire.MARK ∉ run) :
    ([Wire.MARK] ++ run ++ [Wire.MARK]).splitOn Wire.MARK = [[], run, []] := by
  calc ([Wire.MARK] ++ run ++ [Wire.MARK]).splitOn Wire.MARK
      = [] :: (run ++ Wire.MARK :: []).splitOn Wire.MARK := List.splitOn_append_cons_self_of_not_mem List.not_mem_nil _
    _ = [[], run, []] := by rw [List.splitOn_append_cons_self_of_not_mem hrun, List.splitOn_nil]

/-- A frame fed to an idle decoder with room for its run is one message. -/
theorem exec_decChunk_frame {s : State} {run : List Byte} (he : s.dec.ended = false) (ho : s.dec.ovf = false)
    (hbuf : s.dec.buf = []) (hrun : Wire.MARK ∉ run) (hne : run ≠ [])
    (hroom : ∀ cap, s.params.bufCap = some cap → run.length ≤ cap) :
    exec (.decChunk ([Wire.MARK] ++ run ++ [Wire.MARK])) s = .next (s.closeRuns [run] []) := by
  have hfit : RunsFit s.params.bufCap (s.dec.buf ++ ([Wire.MARK] ++ run ++ [Wire.MARK])) := by
    rw [RunsFit, hbuf, List.nil_append, splitOn_frame hrun]
    simpa using hroom
  have hchunk := State.takeChunk_of_runsFit _ (by simp [hbuf]) hfit
  refine exec_decChunk_next.2 ⟨he, ho, ?_⟩
  rw [hchunk, hbuf, List.nil_append, closedRuns, openRun, splitOn_frame hrun]
  simp [hne]

/-- Settles O45: the frame of a write is one run, its command byte and the escaped payload; only for port 12 is the command byte a
boundary. -/
theorem loopBackRestoresThePayload : Obligations.LoopBackRestoresThePayload := by
  intro q s hst hregs hport he ho hbuf hroom
  have hwire : s.enc.dataFrame q = [Wire.MARK] ++ cmdByte s.enc.port 0#4 :: escape q ++ [Wire.MARK] := by
    rw [dataFrame_of_regsAgree hregs]
    rfl
  have hcmd : Wire.MARK ≠ cmdByte s.enc.port 0#4 := fun h => hport ((cmdByte_eq_mark_iff _ _).1 h.symm).1
  have hrun : Wire.MARK ∉ cmdByte s.enc.port 0#4 :: escape q := List.not_mem_cons_of_ne_of_not_mem hcmd (mark_notMem_escape q)
  have hdecoded := exec_decChunk_frame (s := s.emitEnc (s.enc.dataFrame q)) he ho hbuf hrun (List.cons_ne_nil _ _)
    (by simpa [length_escape] using hroom)
  rw [← hwire] at hdecoded
  refine ⟨_, _, _, exec_encWrite hst q, rfl, hdecoded, rfl, ho, ?_⟩
  simp [State.closeRuns, Dec.closeRuns, message_cons, messageHead, unescape_escape]

end Sys2Proof.Machine
end

section
/-! The exceptions of the decoder (60_exceptions.md R193, R195): boundaries that arrive while nothing is buffered, and a byte that arrives
while the buffer is full. -/

namespace Sys2Proof.Machine

/-! ### Adjacent boundary markers -/

/-- An operation that changes nothing may be repeated. -/
theorem execAll_replicate {i : Instr} {s : State} (h : exec i s = .next s) (n : Nat) :
    execAll (List.replicate n i) s = .next s := by
  induction n with
  | zero => rfl
  | succ n ih => rw [List.replicate_succ, execAll_cons_next h, ih]

theorem State.closeRun_idle {s : State} (hbuf : s.dec.buf = []) : s.closeRun = s := if_pos hbuf

theorem State.takeChunk_marks_idle {s : State} (hbuf : s.dec.buf = []) (n : Nat) :
    s.takeChunk (List.replicate n Wire.MARK) = s := by
  induction n with
  | zero => exact s.takeChunk_nil
  | succ n ih => rw [List.replicate_succ, State.takeChunk_mark, State.closeRun_idle hbuf, ih]

/-- Settles O43: the row and the token are one intake, idle on an empty buffer; in a chunk each marker closes no run. -/
theorem adjacentMarkersDoNothing : Obligations.AdjacentMarkersDoNothing := by
  intro n s he ho hbuf
  have hrow : exec .mark s = .next s := decIntake_mark_idle he ho hbuf
  have htoken : exec (.decByte Wire.MARK) s = .next s := decIntake_mark_idle he ho hbuf
  exact ⟨execAll_replicate hrow n, execAll_replicate htoken n,
    exec_decChunk_next.2 ⟨he, ho, (State.takeChunk_marks_idle hbuf n).symm⟩⟩

/-! ### A byte into a full buffer -/

/-- Settles O33: the byte token is the intake, and the full buffer raises the overflow. -/
theorem fullBufferTakesBufOverflow : Obligations.FullBufferTakesBufOverflow :=
  fun _ s _ he ho hb hcap hfull =>
    ⟨overflowedBuf s.params.bufCap s.free, s.free + 1, decIntake_overflow he ho hb hcap hfull⟩

end Sys2Proof.Machine
end

section
/-! The hazard of port 12 (70_reset_and_hazards.md R226): the command byte of its data frames is a boundary, so the decoder reads the
escaped payload alone as the run. -/

namespace Sys2Proof.Machine

/-- A boundary before a chunk changes nothing while nothing is buffered (R162, R193). -/
theorem exec_decChunk_mark_idle {s : State} (hbuf : s.dec.buf = []) (c : List Byte) :
    exec (.decChunk (Wire.MARK :: c)) s = exec (.decChunk c) s :=
  congrArg (whenDecAdmits s) (by rw [State.takeChunk_mark, State.closeRun_idle hbuf])

/-- A byte that is escaped leaves a byte. -/
theorem escape_ne_nil {p : List Byte} (hp : p ≠ []) : escape p ≠ [] := by
  intro h
  exact hp (by simpa [h] using (unescape_escape p).symm)

/-- Settles O46: behind two boundaries, the escaped payload is the run that the last one closes; an empty payload is boundaries only. -/
theorem portTwelveLosesTheFirstPayloadByte : Obligations.PortTwelveLosesTheFirstPayloadByte := by
  intro q s hst hregs hport he ho hbuf hroom
  have hcmd : cmdByte s.enc.port 0#4 = Wire.MARK := (cmdByte_eq_mark_iff _ _).2 ⟨hport, rfl⟩
  have hwire : s.enc.dataFrame q = Wire.MARK :: ([Wire.MARK] ++ escape q ++ [Wire.MARK]) := by
    rw [dataFrame_of_regsAgree hregs, hcmd]
    rfl
  have hskip := exec_decChunk_mark_idle (s := s.emitEnc (s.enc.dataFrame q)) hbuf ([Wire.MARK] ++ escape q ++ [Wire.MARK])
  rw [← hwire] at hskip
  by_cases hq : q = []
  · subst hq
    obtain ⟨-, -, hidle⟩ := adjacentMarkersDoNothing 2 (s.emitEnc (s.enc.dataFrame [])) he ho hbuf
    exact ⟨_, _, _, exec_encWrite hst [], rfl, hskip.trans hidle, hbuf, by simp⟩
  · have hdecoded := exec_decChunk_frame (s := s.emitEnc (s.enc.dataFrame q)) he ho hbuf (mark_notMem_escape q)
      (escape_ne_nil hq) (by simpa [length_escape] using hroom)
    refine ⟨_, _, _, exec_encWrite hst q, rfl, hskip.trans hdecoded, rfl, ?_⟩
    simp [State.closeRuns, Dec.closeRuns, hq]

end Sys2Proof.Machine
end

section
/-! The end of a run (70_reset_and_hazards.md R236): a form presented at a unit's input is told from a consumer's transfer by the
operation it decodes to, and while no form of an input is admitted, a step leaves that unit as it is but for its consumer. -/

namespace Sys2Proof

/-! ### The forms of an input and the transfers of an output -/

/-- A consumer ready for a beat (R65). -/
def Presentation.isTransfer : Presentation → Bool
  | .take _ _ => true
  | _ => false

/-- A token transferred to a consumer (R65, R98). -/
def Instr.isTransfer : Instr → Bool
  | .outByte _ _ | .outEnd _ | .outEom | .outHdr _ => true
  | _ => false

namespace Machine

/-- The operation belongs to the unit the form was presented to, and is a transfer exactly when a consumer's form was presented. -/
def NamesItsUnit (x : Presentation) (i : Instr) : Prop := i.agent = x.agent ∧ i.isTransfer = x.isTransfer

theorem wireClass_namesItsUnit (pos : Position) (b : Byte) : NamesItsUnit (.wire b) (wireClass pos b) := by
  unfold wireClass
  repeat' split
  all_goals exact ⟨rfl, rfl⟩

theorem commandRow_namesItsUnit (b : Byte) : NamesItsUnit (.command b) (commandRow b) := by
  unfold commandRow
  repeat' split
  all_goals exact ⟨rfl, rfl⟩

theorem commandClass_namesItsUnit (pos : Position) (b : Byte) : NamesItsUnit (.command b) (commandClass pos b) := by
  unfold commandClass
  split
  · exact commandRow_namesItsUnit b
  · exact wireClass_namesItsUnit pos b

theorem decodeBeat_namesItsUnit {ch : InChannel} {w : Beat} {i : Instr} (h : decodeBeat ch w = .ok i) :
    NamesItsUnit (.beat ch w) i := by
  unfold decodeBeat at h
  split at h <;> cases ch <;> cases h <;> exact ⟨rfl, rfl⟩

theorem decodeCall_namesItsUnit {ch : InChannel} {ws : List Beat} {i : Instr} (h : decodeCall ch ws = .ok i) :
    NamesItsUnit (.call ch ws) i := by
  unfold decodeCall at h
  split at h
  · cases h
  · split_ifs at h <;> cases ch <;> cases h <;> exact ⟨rfl, rfl⟩

theorem decodeTake_namesItsUnit {ch : OutChannel} {w : Beat} {i : Instr} (h : decodeTake ch w = .ok i) :
    NamesItsUnit (.take ch w) i := by
  unfold decodeTake at h
  split_ifs at h with hbyte hclose hhdr
  · cases h; exact ⟨rfl, rfl⟩
  · cases ch <;> cases h <;> exact ⟨rfl, rfl⟩
  · obtain rfl : ch = .decOut := by simpa using (Bool.and_eq_true_iff.1 hhdr).2
    cases h; exact ⟨rfl, rfl⟩

theorem decode_namesItsUnit {pos : Position} {x : Presentation} {i : Instr} (h : decode pos x = .ok i) : NamesItsUnit x i := by
  cases x with
  | wire b => cases h; exact wireClass_namesItsUnit pos b
  | command b => cases h; exact commandClass_namesItsUnit pos b
  | beat => exact decodeBeat_namesItsUnit h
  | call => exact decodeCall_namesItsUnit h
  | take => exact decodeTake_namesItsUnit h
  | encOpen | rst => cases h; exact ⟨rfl, rfl⟩

/-- A test for the forms presented at the input of a unit: those presented to it that are no consumer's (R50). -/
def IsInputOf (input : Presentation → Bool) (a : Agent) : Prop :=
  ∀ x, input x = true ↔ x.agent = some a ∧ x.isTransfer = false

theorem encInput_isInputOf : IsInputOf encInput .enc := by
  intro x
  cases x with
  | beat ch | call ch => cases ch <;> simp [encInput, Presentation.agent, Presentation.isTransfer, InChannel.agent]
  | wire | command | encOpen | rst | take => simp [encInput, Presentation.agent, Presentation.isTransfer]

theorem decInput_isInputOf : IsInputOf decInput .dec := by
  intro x
  cases x with
  | beat ch | call ch => cases ch <;> simp [decInput, Presentation.agent, Presentation.isTransfer, InChannel.agent]
  | wire | command | encOpen | rst | take => simp [decInput, Presentation.agent, Presentation.isTransfer]

theorem agent_ne_none_of_isRst {x : Presentation} (h : isRst x = false) : x.agent ≠ none := by
  cases x with
  | rst => cases h
  | wire | command | beat | call | encOpen | take => nofun

/-! ### Admission at an input -/

/-- What else is presented is no part of the admission. -/
theorem admits_withEnv (i : Instr) (s : State) (env : List Presentation) : admits i { s with env := env } = admits i s := by
  cases i with
  | outByte ch | outEnd ch => cases ch <;> rfl
  | _ => rfl

/-- A presented form that names no operation, or one that is not admitted (R13 (c), R99). -/
def NotAdmitted (s : State) (x : Presentation) : Prop := ∀ i, decode s.dec.position x = .ok i → admits i s = false

section
variable {i : Instr}

section
variable (ha : i.agent = some .enc) (hi : i.isTransfer = false)
include ha hi

/-- The encoder's admission reads its state and the parameters (R131 to R149). -/
theorem admits_encInput_congr {s t : State} (hst : t.enc.st = s.enc.st) (hparams : t.params = s.params) :
    admits i t = admits i s := by
  cases i with
  | encOpen | encWrite | encClose | encByte | encEow | encEos => simp [admits, openAdmits, hst, hparams]
  | reservedBeat11 => rfl
  | outByte | outEnd | outEom | outHdr => cases hi
  | _ => cases ha

/-- Shut down or failed, the encoder admits nothing (R141, R191). -/
theorem admits_encInput_of_closed_or_error {s : State} (hst : s.enc.st = .closed ∨ s.enc.st = .error) : admits i s = false := by
  cases i with
  | encOpen | encWrite | encClose | encByte | encEow | encEos => rcases hst with hst | hst <;> simp [admits, openAdmits, hst]
  | reservedBeat11 => rfl
  | outByte | outEnd | outEom | outHdr => cases hi
  | _ => cases ha

end

/-- The decoder has one admission test, which no reserved beat meets (R99, R180). -/
theorem admits_decInput (ha : i.agent = some .dec) (hi : i.isTransfer = false) :
    (∀ s, admits i s = decAdmits s) ∨ ∀ s, admits i s = false := by
  cases i with
  | reservedBeat11 => exact .inr fun _ => rfl
  | outByte | outEnd | outEom | outHdr => cases hi
  | escape | unescape | encOpen | encWrite | encClose | reset | escByte | escEnd | unescByte | unescEnd | encByte | encEow
  | encEos => cases ha
  | _ => exact .inl fun _ => rfl

/-- What a form of an input decodes to. -/
theorem agent_isTransfer_of_input {input : Presentation → Bool} {a : Agent} (hin : IsInputOf input a) {x : Presentation}
    (hx : input x = true) {pos : Position} (hd : decode pos x = .ok i) : i.agent = some a ∧ i.isTransfer = false := by
  obtain ⟨hagent, htransfer⟩ := decode_namesItsUnit hd
  rwa [hagent, htransfer, ← hin x]

end

section
variable {s t : State} {x : Presentation}

/-- Only a wire byte is decoded by its position (R80, R98). -/
theorem decode_encInput_position (hx : encInput x = true) (p q : Position) : decode p x = decode q x := by
  cases x with
  | wire | command | rst | take => cases hx
  | beat | call | encOpen => rfl

theorem notAdmitted_encInput_congr (hx : encInput x = true) (hst : t.enc.st = s.enc.st) (hparams : t.params = s.params) :
    NotAdmitted t x ↔ NotAdmitted s x := by
  rw [NotAdmitted, NotAdmitted, decode_encInput_position hx t.dec.position s.dec.position]
  refine forall₂_congr fun i hd => ?_
  obtain ⟨ha, hi⟩ := agent_isTransfer_of_input encInput_isInputOf hx hd
  rw [admits_encInput_congr ha hi hst hparams]

theorem notAdmitted_encInput_of_closed_or_error (hx : encInput x = true) (hst : s.enc.st = .closed ∨ s.enc.st = .error) :
    NotAdmitted s x := by
  intro i hd
  obtain ⟨ha, hi⟩ := agent_isTransfer_of_input encInput_isInputOf hx hd
  exact admits_encInput_of_closed_or_error ha hi hst

/-- Neither the position nor the admission of a decoder token reads the decoder's channel. -/
theorem notAdmitted_decInput_congr (hx : decInput x = true) {o : Out DecToken} (hdec : t.dec = { s.dec with out := o }) :
    NotAdmitted t x ↔ NotAdmitted s x := by
  have hpos : t.dec.position = s.dec.position := by rw [hdec]; rfl
  have hadmits : decAdmits t = decAdmits s := by simp [decAdmits, hdec]
  rw [NotAdmitted, NotAdmitted, hpos]
  refine forall₂_congr fun i hd => ?_
  obtain ⟨ha, hi⟩ := agent_isTransfer_of_input decInput_isInputOf hx hd
  rcases admits_decInput ha hi with h | h <;> simp [h, hadmits]

/-- Ended or overflowed, the decoder admits nothing (R180). -/
theorem notAdmitted_decInput_of_stopped (hx : decInput x = true) (hstop : s.dec.ended = true ∨ s.dec.ovf = true) :
    NotAdmitted s x := by
  intro i hd
  obtain ⟨ha, hi⟩ := agent_isTransfer_of_input decInput_isInputOf hx hd
  have hadmits : decAdmits s = false := by rcases hstop with h | h <;> simp [decAdmits, h]
  rcases admits_decInput ha hi with h | h <;> simp [h, hadmits]

end

/-! ### A step that takes no form of an input -/

/-- At most the consumer of the channel takes a token. -/
inductive ConsumerStep {α : Type} (o : Out α) : Out α → Prop
  | none : ConsumerStep o o
  | take {x : α} (offered : o.offered = some x) : ConsumerStep o o.advance

/-- With everything taken, nothing is offered (R65). -/
theorem ConsumerStep.eq_of_allTaken {α : Type} {o o' : Out α} (h : ConsumerStep o o') (hall : o.taken = o.trace.length) :
    o' = o := by
  cases h with
  | none => rfl
  | take offered => exact absurd hall (Out.taken_lt_of_offered offered).ne

section
variable {i : Instr} {s t : State} {a : Agent} (h : exec i s = .next t) (ha : i.agent = some a)
include h ha

/-- What an operation that is no form of the encoder's input leaves of the encoder. -/
theorem enc_of_exec_noInput (hi : a = .enc → i.isTransfer = true) :
    ∃ o, ConsumerStep s.enc.out o ∧ t.enc = { s.enc with out := o } := by
  obtain ⟨-, -, henc, -⟩ := operationsTouchOnlyTheirUnit i s t a h ha
  by_cases hae : a = .enc
  · subst hae
    cases i with
    | outByte ch b =>
      cases ch with
      | encOut =>
        obtain ⟨ho, rfl⟩ := takeEnc_next.1 h
        exact ⟨_, .take ho, rfl⟩
      | escOut | unescOut | decOut => cases ha
    | outEnd ch => cases ch <;> cases ha
    | outEom | outHdr => cases ha
    | _ => cases hi rfl
  · exact ⟨_, .none, henc hae⟩

/-- What an operation that is no form of the decoder's input leaves of the decoder. -/
theorem dec_of_exec_noInput (hi : a = .dec → i.isTransfer = true) :
    ∃ o, ConsumerStep s.dec.out o ∧ t.dec = { s.dec with out := o } := by
  obtain ⟨-, -, -, hdec, -⟩ := operationsTouchOnlyTheirUnit i s t a h ha
  have htransfer {x : DecToken} (h : takeDec x s = .next t) :
      ∃ o, ConsumerStep s.dec.out o ∧ t.dec = { s.dec with out := o } := by
    obtain ⟨ho, rfl⟩ := takeDec_next.1 h
    exact ⟨_, .take ho, rfl⟩
  by_cases had : a = .dec
  · subst had
    cases i with
    | outByte ch b =>
      cases ch with
      | decOut => exact htransfer h
      | escOut | unescOut | encOut => cases ha
    | outEnd ch => cases ch <;> cases ha
    | outEom | outHdr => exact htransfer h
    | _ => cases hi rfl
  · exact ⟨_, .none, (hdec had).1⟩

end

/-- What an input is presented next is a form of that input. -/
theorem input_of_nextInput {input : Presentation → Bool} {xs : List Presentation} {y : Presentation}
    (h : nextInput input xs = some y) : input y = true := by
  induction xs with
  | nil => cases h
  | cons x xs ih =>
    unfold nextInput at h
    split_ifs at h with hr hx
    · cases h; exact hx
    · exact ih h

/-- No `RESET` is presented next. -/
def NoResetNext (s : State) : Prop := ∀ x, s.env.head? = some x → isRst x = false

/-- What is presented next, if it is a form of the input, is not admitted. -/
def StuckAt (input : Presentation → Bool) (s : State) : Prop := ∀ x, s.env.head? = some x → input x = true → NotAdmitted s x

section
variable {input : Presentation → Bool} {s t : State}

/-- A form presented first is what its input is presented next, so where a token waits it is that token. -/
theorem stuckAt_of_tokenWaits (hrst : NoResetNext s) (hw : tokenWaits input s = true) : StuckAt input s := by
  intro x hx hin
  obtain ⟨y, hy, hwait⟩ := (tokenWaits_iff input s).1 hw
  obtain ⟨rest, henv⟩ := List.head?_eq_some_iff.1 hx
  rw [henv, nextInput_cons_input (hrst x hx) hin] at hy
  cases hy
  exact hwait

variable {a : Agent} (hin : IsInputOf input a)
include hin

/-- Where the form presented first is not taken by the input, a step idles, or runs an operation that is none of the input's. -/
theorem step_cases_of_stuckAt (hrst : NoResetNext s) (hstuck : StuckAt input s) (hstep : step s = .next t) :
    t = s ∨ ∃ x rest i b, s.env = x :: rest ∧ isRst x = false ∧ input x = false ∧ i.agent = some b ∧
      (b = a → i.isTransfer = true) ∧ exec i { s with env := rest } = .next t := by
  rcases step_cases s with ⟨-, e⟩ | ⟨x, rest, henv, ⟨err, -, e⟩ | ⟨i, hd, e⟩⟩ <;> rw [e] at hstep
  · cases hstep
    exact .inl rfl
  · exact absurd hstep (rejected_ne_next err t)
  · have hhead : s.env.head? = some x := by rw [henv, List.head?_cons]
    obtain ⟨hagent, htransfer⟩ := decode_namesItsUnit hd
    obtain ⟨b, hb⟩ := Option.ne_none_iff_exists'.1 (agent_ne_none_of_isRst (hrst x hhead))
    have hx : input x = false := by
      by_contra hx
      have hadmits := (exec_completes i { s with env := rest }).1.1 ⟨t, hstep⟩
      rw [admits_withEnv, hstuck x hhead (by simpa using hx) i hd] at hadmits
      cases hadmits
    refine .inr ⟨x, rest, i, b, henv, hrst x hhead, hx, hagent.trans hb, ?_, hstep⟩
    rintro rfl
    rw [htransfer]
    by_contra hnt
    exact Bool.false_ne_true (hx.symm.trans ((hin x).2 ⟨hb, by simpa using hnt⟩))

end

/-- Another unit's form taken, an input waits as before, when its tokens are admitted as before. -/
theorem tokenWaits_of_otherForm {input : Presentation → Bool} {s t : State} {x : Presentation} {rest : List Presentation}
    (henv : s.env = x :: rest) (hr : isRst x = false) (hx : input x = false) (ht : t.env = rest)
    (hkeep : ∀ y, input y = true → (NotAdmitted t y ↔ NotAdmitted s y)) : tokenWaits input t = tokenWaits input s := by
  rw [Bool.eq_iff_iff, tokenWaits_iff, tokenWaits_iff, henv, nextInput_cons_other hr hx, ht]
  exact exists_congr fun y => and_congr_right fun hy => hkeep y (input_of_nextInput hy)

section
variable {s t : State} (hrst : NoResetNext s) (hstep : step s = .next t)
include hrst hstep

/-- An encoder that does not take what it is presented: its consumer's transfer is the one thing that can happen to it. -/
theorem enc_of_stuckAt (hstuck : StuckAt encInput s) :
    (∃ o, ConsumerStep s.enc.out o ∧ t.enc = { s.enc with out := o }) ∧ tokenWaits encInput t = tokenWaits encInput s := by
  obtain rfl | ⟨x, rest, i, b, henv, hr, hx, ha, hi, h⟩ := step_cases_of_stuckAt encInput_isInputOf hrst hstuck hstep
  · exact ⟨⟨_, .none, rfl⟩, rfl⟩
  · obtain ⟨o, ho, henc⟩ := enc_of_exec_noInput h ha hi
    obtain ⟨-, -, -, -, htenv, hparams⟩ := operationsTouchOnlyTheirUnit i _ t b h ha
    have hst : t.enc.st = s.enc.st := by rw [henc]
    exact ⟨⟨o, ho, henc⟩, tokenWaits_of_otherForm henv hr hx htenv fun _ hy => notAdmitted_encInput_congr hy hst hparams⟩

/-- A decoder that does not take what it is presented: its consumer's transfer is the one thing that can happen to it. -/
theorem dec_of_stuckAt (hstuck : StuckAt decInput s) :
    (∃ o, ConsumerStep s.dec.out o ∧ t.dec = { s.dec with out := o }) ∧ tokenWaits decInput t = tokenWaits decInput s := by
  obtain rfl | ⟨x, rest, i, b, henv, hr, hx, ha, hi, h⟩ := step_cases_of_stuckAt decInput_isInputOf hrst hstuck hstep
  · exact ⟨⟨_, .none, rfl⟩, rfl⟩
  · obtain ⟨o, ho, hdec⟩ := dec_of_exec_noInput h ha hi
    obtain ⟨-, -, -, -, htenv, -⟩ := operationsTouchOnlyTheirUnit i _ t b h ha
    exact ⟨⟨o, ho, hdec⟩, tokenWaits_of_otherForm henv hr hx htenv fun _ hy => notAdmitted_decInput_congr hy hdec⟩

end

/-! ### The two obligations on the end of a run -/

open Safety

section
variable {s : State}

theorem not_encRunOver_of_tokenWaits (hw : tokenWaits encInput s = true) : ¬ EncRunOver s := by
  rintro ⟨-, -, hnone⟩
  exact Bool.false_ne_true (hnone.symm.trans hw)

theorem not_decRunOver_of_tokenWaits (hw : tokenWaits decInput s = true) : ¬ DecRunOver s := by
  rintro ⟨-, -, -, hnone⟩
  exact Bool.false_ne_true (hnone.symm.trans hw)

theorem not_decRunOver_of_ovf (hovf : s.dec.ovf = true) : ¬ DecRunOver s := by
  rintro ⟨-, hno, -⟩
  exact Bool.false_ne_true (hno.symm.trans hovf)

end

/-- Settles O58: where a token waits, the input takes no form, so its tokens are admitted after the step as before; an overflowed decoder
takes none either. -/
theorem waitingTokenOrOverflowKeepsTheRunOpen : Obligations.WaitingTokenOrOverflowKeepsTheRunOpen := by
  intro s t hstep hrst
  refine ⟨fun hw => ?_, fun hw => ?_, fun hovf => ?_⟩
  · obtain ⟨-, hsame⟩ := enc_of_stuckAt hrst hstep (stuckAt_of_tokenWaits hrst hw)
    exact ⟨not_encRunOver_of_tokenWaits hw, hsame.trans hw, not_encRunOver_of_tokenWaits (hsame.trans hw)⟩
  · obtain ⟨-, hsame⟩ := dec_of_stuckAt hrst hstep (stuckAt_of_tokenWaits hrst hw)
    exact ⟨not_decRunOver_of_tokenWaits hw, hsame.trans hw, not_decRunOver_of_tokenWaits (hsame.trans hw)⟩
  · obtain ⟨⟨o, -, hdec⟩, -⟩ := dec_of_stuckAt hrst hstep fun _ _ hx => notAdmitted_decInput_of_stopped hx (.inr hovf)
    have htovf : t.dec.ovf = true := by rw [hdec]; exact hovf
    exact ⟨not_decRunOver_of_ovf hovf, htovf, not_decRunOver_of_ovf htovf⟩

/-- Settles O59: a unit whose run is over takes no form, and its consumer is offered nothing. -/
theorem runThatIsOverStaysOver : Obligations.RunThatIsOverStaysOver := by
  intro s t hstep hrst
  constructor
  · rintro ⟨hst, hall, hnone⟩
    obtain ⟨⟨o, ho, henc⟩, hsame⟩ :=
      enc_of_stuckAt hrst hstep fun _ _ hx => notAdmitted_encInput_of_closed_or_error hx hst
    have heq : t.enc = s.enc := by rw [henc, ho.eq_of_allTaken hall]
    exact ⟨⟨by rwa [heq], by rwa [heq], hsame.trans hnone⟩, heq⟩
  · rintro ⟨hend, hovf, hall, hnone⟩
    obtain ⟨⟨o, ho, hdec⟩, hsame⟩ := dec_of_stuckAt hrst hstep fun _ _ hx => notAdmitted_decInput_of_stopped hx (.inl hend)
    have heq : t.dec = s.dec := by rw [hdec, ho.eq_of_allTaken hall]
    exact ⟨⟨by rwa [heq], by rwa [heq], by rwa [heq], hsame.trans hnone⟩, heq⟩

end Machine
end Sys2Proof
end
